-- ==== Sys2Proof/Word.lean ====
section
/-! DEFINITION. Words of the RKV-460 and the fixed-size container its numbered things live in. -/

namespace Sys2Proof

/-- One byte on the bus (spec/10 R178). -/
abbrev Byte := BitVec 8

/-- A 16-bit number that wraps: cycle numbers, serials, batch numbers (spec/00 section 1.5). -/
abbrev Word := BitVec 16

/-- A port of the part, 0 to 7 (spec/03 R47). -/
abbrev PortNum := Fin 8

/-- An actuator channel, 0 to 15 (spec/05). -/
abbrev ChanNum := Fin 16

/-- A job slot, 0 to 7 (spec/08 R146). -/
abbrev JobNum := Fin 8

/-- `n` numbered things of one type: ports, channels, table slots, job slots. -/
abbrev Bank (α : Type) (n : Nat) := Vector α n

/-- The thing numbered `i`. -/
def Bank.get {α : Type} {n : Nat} (b : Bank α n) (i : Fin n) : α := b[i]

/-- The bank with `x` at number `i` and every other number as it was. -/
def Bank.put {α : Type} {n : Nat} (b : Bank α n) (i : Fin n) (x : α) : Bank α n := b.set i x

/-- Every number holds `x`. -/
def Bank.fill {α : Type} (n : Nat) (x : α) : Bank α n := Vector.replicate n x

/-- `f` applied at every number. -/
def Bank.map {α β : Type} {n : Nat} (f : α → β) (b : Bank α n) : Bank β n :=
  ⟨⟨b.toList.map f⟩, by simp⟩

/-- `f` applied at number `i`. -/
def Bank.modify {α : Type} {n : Nat} (b : Bank α n) (i : Fin n) (f : α → α) : Bank α n :=
  b.put i (f (b.get i))

/-- Does every number's content pass `f`? -/
def Bank.all {α : Type} {n : Nat} (b : Bank α n) (f : α → Bool) : Bool := b.toList.all f

/-- How many numbers' contents pass `f`. -/
def Bank.count {α : Type} {n : Nat} (b : Bank α n) (f : α → Bool) : Nat := (b.toList.filter f).length

end Sys2Proof
end

