-- ==== Sys2Proof/Syntax.lean ====
section
/-! DEFINITION. The commands of the RKV-460: one constructor for each row of spec/opcode_table.json. Operands of bus
commands are the raw values of spec/10 Table 10-2, because the Bus Target Interface checks none of them (R173). -/

namespace Sys2Proof

/-- The pin levels read at the end of power-on reset or RST: ADDR[1:0] (spec/10 R169), the inactive level of ENC_Z
(spec/01 R3), and the levels of ENC_A and ENC_B from which decoding starts (spec/01 R1). -/
structure ResetPins where
  addr : BitVec 2
  encZ : Bool
  encA : Bool
  encB : Bool
  deriving DecidableEq, Repr

/-- The 28 configuration bytes of SET_CHANNEL as they come over the bus, in their order (spec/10 after Table 10-3). -/
structure RawConfig where
  sp : Byte
  gate : Byte
  gateField : Byte
  stamp : Byte
  onAngle : Word
  offAngle : Word
  mode : Byte
  duration : Word
  longDuration : BitVec 32
  dotCount : Byte
  dot : Word
  gap : Word
  latencyOn : Word
  latencyOff : Word
  leadLimit : Word
  minSpeed : Word
  deriving DecidableEq, Repr

/-- One entry of a field list as it comes over the bus: a field code and a value (spec/10 R174). -/
structure RawEntry where
  field : Byte
  value : Byte
  deriving DecidableEq, Repr

/-- The commands, in the table's order. `p` is the port the write transaction arrived on (spec/03 R47). -/
inductive Instr where
  /-- R2. `jumped`: an opposite-state change, which gives no count, came since the last count (R1). `feed`, `splice`:
  the FEED and SPLICE levels at this instant (R26). -/
  | forwardCount (jumped feed splice : Bool)
  /-- R2. `jumped` as for a forward count. -/
  | backwardCount (jumped : Bool)
  /-- R3 to R5. A change of ENC_Z from its inactive level, with the FEED and SPLICE levels at this instant. -/
  | indexEdge (feed splice : Bool)
  /-- R10. -/
  | speedWindowEnd
  /-- R17 and the reset rules of every chapter. -/
  | powerOnReset (pins : ResetPins)
  /-- R170. -/
  | rst (pins : ResetPins)
  /-- R170. -/
  | initEnd
  /-- R119. -/
  | timerExpiry (k : ChanNum)
  /-- R51, R169. A START and a write address. -/
  | referenceCycleLatch (address : BitVec 7)
  /-- R177, R169. A START, a read address and `clocked` bytes. -/
  | readTransaction (address : BitVec 7) (clocked : Nat)
  /-- R172. A write transaction whose code byte is unknown. -/
  | unknownCmd (p : PortNum) (code : Byte)
  /-- R174, R175. A write transaction discarded after its code byte. -/
  | short (p : PortNum) (code : Byte)
  | readPhase (p : PortNum)
  | capture (p : PortNum)
  | readSnapshot (p : PortNum)
  | purge (p : PortNum)
  | rejectRange (p : PortNum) (a b : Byte)
  | resync (p : PortNum)
  | setLine (p : PortNum) (l kc : Byte) (counts : Word) (t : Byte)
  | readLine (p : PortNum)
  | readRec (p : PortNum) (index : Byte)
  | readRecSer (p : PortNum) (serial : Word)
  | readWindow (p : PortNum)
  | writeRec (p : PortNum) (index : Byte) (entries : List RawEntry)
  | writeRecSer (p : PortNum) (serial : Word) (entries : List RawEntry)
  | setPort (p : PortNum) (target privileges base length dirAccess : Byte) (mask : Word)
  | readPort (p : PortNum) (target : Byte)
  | readFault (p : PortNum) (target : Byte)
  | clearFault (p : PortNum)
  | portReset (p : PortNum) (target : Byte)
  | setChannel (p : PortNum) (channel : Byte) (config : RawConfig)
  | enableChannel (p : PortNum) (channel : Byte)
  | disableChannel (p : PortNum) (channel : Byte)
  | readChannel (p : PortNum) (channel : Byte)
  | setJob (p : PortNum) (slot : Byte) (order : BitVec 24) (size quota : Word)
  | setBatchSize (p : PortNum) (slot : Byte) (size : Word)
  | switchJob (p : PortNum) (slot : Byte)
  | readJob (p : PortNum) (slot : Byte)
  | readOpen (p : PortNum)
  | closeBatch (p : PortNum)
  | readBatch (p : PortNum) (entry : Byte)
  | popBatch (p : PortNum)
  | setEvents (p : PortNum) (events : Word)
  | readEvents (p : PortNum)
  | clearEvents (p : PortNum) (events : Word)
  deriving DecidableEq, Repr

end Sys2Proof
end

