-- ==== Sys2Proof/Decode.lean ====
section
/-! DEFINITION. The wire formats of spec/10: command codes, operand framing, the command a finished write transaction
spells, and the bytes that spell a command. No row of spec/opcode_table.json has bits of its own, so the table's decoder
answers none. -/

namespace Sys2Proof

/-! ## Byte order: most significant byte first (R178) -/

/-- Two bytes as a 16-bit value, most significant first. -/
def word16 (hi lo : Byte) : Word := hi ++ lo

/-- Three bytes as a 24-bit value. -/
def word24 (a b c : Byte) : BitVec 24 := a ++ b ++ c

/-- Four bytes as a 32-bit value. -/
def word32 (a b c d : Byte) : BitVec 32 := a ++ b ++ c ++ d

/-- A 16-bit value as two bytes, most significant first. -/
def bytes16 (w : Word) : List Byte := [w.extractLsb' 8 8, w.extractLsb' 0 8]

/-- A 24-bit value as three bytes. -/
def bytes24 (w : BitVec 24) : List Byte := [w.extractLsb' 16 8, w.extractLsb' 8 8, w.extractLsb' 0 8]

/-- A 32-bit value as four bytes. -/
def bytes32 (w : BitVec 32) : List Byte :=
  [w.extractLsb' 24 8, w.extractLsb' 16 8, w.extractLsb' 8 8, w.extractLsb' 0 8]

/-! ## Command codes (Table 10-2) -/

def Code.readPhase : Byte := 0x10
def Code.capture : Byte := 0x11
def Code.readSnapshot : Byte := 0x12
def Code.purge : Byte := 0x20
def Code.rejectRange : Byte := 0x21
def Code.resync : Byte := 0x22
def Code.setLine : Byte := 0x23
def Code.readLine : Byte := 0x24
def Code.readRec : Byte := 0x30
def Code.readRecSer : Byte := 0x31
def Code.readWindow : Byte := 0x32
def Code.writeRec : Byte := 0x33
def Code.writeRecSer : Byte := 0x34
def Code.setPort : Byte := 0x40
def Code.readPort : Byte := 0x41
def Code.readFault : Byte := 0x42
def Code.clearFault : Byte := 0x43
def Code.portReset : Byte := 0x44
def Code.setChannel : Byte := 0x50
def Code.enableChannel : Byte := 0x51
def Code.disableChannel : Byte := 0x52
def Code.readChannel : Byte := 0x53
def Code.setJob : Byte := 0x60
def Code.setBatchSize : Byte := 0x61
def Code.switchJob : Byte := 0x62
def Code.readJob : Byte := 0x63
def Code.readOpen : Byte := 0x64
def Code.closeBatch : Byte := 0x65
def Code.readBatch : Byte := 0x66
def Code.popBatch : Byte := 0x67
def Code.setEvents : Byte := 0x70
def Code.readEvents : Byte := 0x71
def Code.clearEvents : Byte := 0x72

/-- The number of operand bytes Table 10-2 gives for a code; for the two record writes, the bytes up to and with the
length byte (R174). None: the code is unknown. -/
def operandBytes (code : Byte) : Option Nat :=
  match code.toNat with
  | 0x10 => some 0
  | 0x11 => some 0
  | 0x12 => some 0
  | 0x20 => some 0
  | 0x21 => some 2
  | 0x22 => some 0
  | 0x23 => some 5
  | 0x24 => some 0
  | 0x30 => some 1
  | 0x31 => some 2
  | 0x32 => some 0
  | 0x33 => some 2
  | 0x34 => some 3
  | 0x40 => some 7
  | 0x41 => some 1
  | 0x42 => some 1
  | 0x43 => some 0
  | 0x44 => some 1
  | 0x50 => some 29
  | 0x51 => some 1
  | 0x52 => some 1
  | 0x53 => some 1
  | 0x60 => some 8
  | 0x61 => some 3
  | 0x62 => some 1
  | 0x63 => some 1
  | 0x64 => some 0
  | 0x65 => some 0
  | 0x66 => some 1
  | 0x67 => some 0
  | 0x70 => some 2
  | 0x71 => some 0
  | 0x72 => some 2
  | _ => none

/-- Is the code one of Table 10-2 (R172)? -/
def knownCode (code : Byte) : Bool := (operandBytes code).isSome

/-- Are the operands of this code framed by a length byte (R174)? -/
def framedByLength (code : Byte) : Bool := code == Code.writeRec || code == Code.writeRecSer

/-- The most entries a field list may state (R174). -/
def maxEntries : Nat := 10

/-- How far the operands of a command have come. -/
inductive Progress where
  /-- more operand bytes are to come -/
  | more
  /-- the last operand byte has come -/
  | done
  /-- a length byte above 10 has come (R174) -/
  | badLength
  deriving DecidableEq, Repr

/-- How far the operands `got` of a known `code` have come (R173, R174). -/
def progress (code : Byte) (got : List Byte) : Progress :=
  match operandBytes code with
  | none => .more
  | some n =>
    if got.length < n then .more
    else if framedByLength code then
      match got[n - 1]? with
      | none => .more
      | some len =>
        if maxEntries < len.toNat then .badLength
        else if got.length < n + 2 * len.toNat then .more
        else .done
    else .done

/-- The entries of a field list, two bytes each (R174); an odd byte at the end is no entry. -/
def entriesOf : List Byte → List RawEntry
  | f :: v :: rest => ⟨f, v⟩ :: entriesOf rest
  | _ => []

/-- The bytes of a field list's entries. -/
def entryBytes : List RawEntry → List Byte
  | [] => []
  | e :: rest => e.field :: e.value :: entryBytes rest

/-- The 28 configuration bytes as fields, in the order spec/10 gives after Table 10-3. -/
def configOf : List Byte → Option RawConfig
  | [sp, gate, gf, st, on1, on0, of1, of0, mode, d1, d0, l3, l2, l1, l0, dc, dt1, dt0, gp1, gp0, ln1, ln0, lf1, lf0,
      ll1, ll0, ms1, ms0] =>
    some ⟨sp, gate, gf, st, word16 on1 on0, word16 of1 of0, mode, word16 d1 d0, word32 l3 l2 l1 l0, dc, word16 dt1 dt0,
      word16 gp1 gp0, word16 ln1 ln0, word16 lf1 lf0, word16 ll1 ll0, word16 ms1 ms0⟩
  | _ => none

/-- The 28 bytes of a configuration. -/
def configBytes (c : RawConfig) : List Byte :=
  [c.sp, c.gate, c.gateField, c.stamp] ++ bytes16 c.onAngle ++ bytes16 c.offAngle ++ [c.mode] ++ bytes16 c.duration
    ++ bytes32 c.longDuration ++ [c.dotCount] ++ bytes16 c.dot ++ bytes16 c.gap ++ bytes16 c.latencyOn
    ++ bytes16 c.latencyOff ++ bytes16 c.leadLimit ++ bytes16 c.minSpeed

/-- The command that a known code and its whole operands spell on port `p` (Table 10-2). -/
def commandOf (p : PortNum) (code : Byte) (ops : List Byte) : Option Instr :=
  match code.toNat, ops with
  | 0x10, [] => some (.readPhase p)
  | 0x11, [] => some (.capture p)
  | 0x12, [] => some (.readSnapshot p)
  | 0x20, [] => some (.purge p)
  | 0x21, [a, b] => some (.rejectRange p a b)
  | 0x22, [] => some (.resync p)
  | 0x23, [l, kc, p1, p0, t] => some (.setLine p l kc (word16 p1 p0) t)
  | 0x24, [] => some (.readLine p)
  | 0x30, [i] => some (.readRec p i)
  | 0x31, [s1, s0] => some (.readRecSer p (word16 s1 s0))
  | 0x32, [] => some (.readWindow p)
  | 0x33, i :: _ :: es => some (.writeRec p i (entriesOf es))
  | 0x34, s1 :: s0 :: _ :: es => some (.writeRecSer p (word16 s1 s0) (entriesOf es))
  | 0x40, [q, pr, b, n, da, m1, m0] => some (.setPort p q pr b n da (word16 m1 m0))
  | 0x41, [q] => some (.readPort p q)
  | 0x42, [q] => some (.readFault p q)
  | 0x43, [] => some (.clearFault p)
  | 0x44, [q] => some (.portReset p q)
  | 0x50, k :: cfg => (configOf cfg).map (.setChannel p k)
  | 0x51, [k] => some (.enableChannel p k)
  | 0x52, [k] => some (.disableChannel p k)
  | 0x53, [k] => some (.readChannel p k)
  | 0x60, [j, o2, o1, o0, n1, n0, q1, q0] => some (.setJob p j (word24 o2 o1 o0) (word16 n1 n0) (word16 q1 q0))
  | 0x61, [j, n1, n0] => some (.setBatchSize p j (word16 n1 n0))
  | 0x62, [j] => some (.switchJob p j)
  | 0x63, [j] => some (.readJob p j)
  | 0x64, [] => some (.readOpen p)
  | 0x65, [] => some (.closeBatch p)
  | 0x66, [k] => some (.readBatch p k)
  | 0x67, [] => some (.popBatch p)
  | 0x70, [e1, e0] => some (.setEvents p (word16 e1 e0))
  | 0x71, [] => some (.readEvents p)
  | 0x72, [e1, e0] => some (.clearEvents p (word16 e1 e0))
  | _, _ => none

/-- The bytes after the address of a write transaction that carries the command, and its port. None for the rows that
are no command of Table 10-2. -/
def wireBytes : Instr → Option (PortNum × List Byte)
  | .readPhase p => some (p, [Code.readPhase])
  | .capture p => some (p, [Code.capture])
  | .readSnapshot p => some (p, [Code.readSnapshot])
  | .purge p => some (p, [Code.purge])
  | .rejectRange p a b => some (p, [Code.rejectRange, a, b])
  | .resync p => some (p, [Code.resync])
  | .setLine p l kc n t => some (p, [Code.setLine, l, kc] ++ bytes16 n ++ [t])
  | .readLine p => some (p, [Code.readLine])
  | .readRec p i => some (p, [Code.readRec, i])
  | .readRecSer p s => some (p, Code.readRecSer :: bytes16 s)
  | .readWindow p => some (p, [Code.readWindow])
  | .writeRec p i es => some (p, [Code.writeRec, i, BitVec.ofNat 8 es.length] ++ entryBytes es)
  | .writeRecSer p s es =>
    some (p, [Code.writeRecSer] ++ bytes16 s ++ [BitVec.ofNat 8 es.length] ++ entryBytes es)
  | .setPort p q pr b n da m => some (p, [Code.setPort, q, pr, b, n, da] ++ bytes16 m)
  | .readPort p q => some (p, [Code.readPort, q])
  | .readFault p q => some (p, [Code.readFault, q])
  | .clearFault p => some (p, [Code.clearFault])
  | .portReset p q => some (p, [Code.portReset, q])
  | .setChannel p k c => some (p, [Code.setChannel, k] ++ configBytes c)
  | .enableChannel p k => some (p, [Code.enableChannel, k])
  | .disableChannel p k => some (p, [Code.disableChannel, k])
  | .readChannel p k => some (p, [Code.readChannel, k])
  | .setJob p j o n q => some (p, [Code.setJob, j] ++ bytes24 o ++ bytes16 n ++ bytes16 q)
  | .setBatchSize p j n => some (p, [Code.setBatchSize, j] ++ bytes16 n)
  | .switchJob p j => some (p, [Code.switchJob, j])
  | .readJob p j => some (p, [Code.readJob, j])
  | .readOpen p => some (p, [Code.readOpen])
  | .closeBatch p => some (p, [Code.closeBatch])
  | .readBatch p k => some (p, [Code.readBatch, k])
  | .popBatch p => some (p, [Code.popBatch])
  | .setEvents p e => some (p, Code.setEvents :: bytes16 e)
  | .readEvents p => some (p, [Code.readEvents])
  | .clearEvents p e => some (p, Code.clearEvents :: bytes16 e)
  | .forwardCount _ _ _ => none
  | .backwardCount _ => none
  | .indexEdge _ _ => none
  | .speedWindowEnd => none
  | .powerOnReset _ => none
  | .rst _ => none
  | .initEnd => none
  | .timerExpiry _ => none
  | .referenceCycleLatch _ => none
  | .readTransaction _ _ => none
  | .unknownCmd _ _ => none
  | .short _ _ => none

/-- The command that a word spells by the bits of spec/opcode_table.json: no row of the table has bits, so none
(DEDUCED, log 29). -/
def decodeTableWord (nbits w : Nat) : Option Instr :=
  match nbits, w with
  | _, _ => none

end Sys2Proof
end

