-- ==== Sys2Proof/Config.lean ====
section
/-! DEFINITION. What is fixed for one part, and the values the spec leaves open. Every open value is an
opaque constant: no proof can see it, and a claim that holds, holds whatever it is. -/

namespace Sys2Proof

/-- CLK periods in a microsecond: CLK is 20 MHz (spec/06 R119). -/
def Config.clkPerMicrosecond : Nat := 20

/-- CLK periods in one 1 ms window of the speed measurement (spec/01 R10). -/
def Config.clkPerWindow : Nat := 20000

/-- CLK periods in 250 µs, the longest INIT (spec/10 R170). -/
def Config.initLimit : Nat := 5000

/-- FREE. The length of INIT in CLK periods; the model cuts it at `initLimit` (spec/10 R170, log 6). -/
opaque Config.initPeriods : Nat

/-- FREE. The turn channel `k` has in the `n`-th free choice, when several channels' events or cuts fall at one
instant: the lower turn is taken first (spec/05 R94, spec/02 R31, log 3). -/
opaque Config.eventTurn (n : Nat) (k : Nat) : Nat

/-- FREE. In the `n`-th free choice: is channel `k`'s on event, at the very count of an advance, taken before the
advance (spec/05 R95, log 4)? -/
opaque Config.beforeAdvance (n : Nat) (k : Nat) : Bool

/-- FREE. In the `n`-th free choice: does the window end come before the timer expiries of the same CLK period
(spec/01 R11, spec/06 R119, log 18)? -/
opaque Config.windowFirst (n : Nat) : Bool

/-- FREE. Which result field the gate-field byte of READ_CHANNEL names in the `n`-th free choice when the gate is not
PRESENT_AFTER; `pending` tells the byte of the pending configuration from that of the applied one (spec/10 R179,
log 7). -/
opaque Config.unreadGateField (n : Nat) (pending : Bool) : Fin 6

end Sys2Proof
end

