-- ==== Sys2Proof/Machine/State.lean ====
section
/-! DEFINITION. The state of the RKV-460, block by block as spec/00 Table I-1 divides it, and its value after reset. -/

namespace Sys2Proof.Machine

/-! ## Records of the Tracking Table (spec/02) -/

/-- What was cut in a cycle (Table 2-1). -/
inductive Kind where
  | blank
  | void
  | splice
  deriving DecidableEq, Repr

/-- A station's verdict on its work (Table 2-1). -/
inductive Result where
  | none
  | done
  | fault
  deriving DecidableEq, Repr

/-- The six result fields (Table 2-1). -/
inductive ResultField where
  | cut
  | win
  | patch
  | gum
  | fold
  | inspect
  deriving DecidableEq, Repr

/-- The results of one record. -/
structure Results where
  cut : Result
  win : Result
  patch : Result
  gum : Result
  fold : Result
  inspect : Result
  deriving DecidableEq, Repr

/-- A reject reason with its detail (R32). -/
inductive Reject where
  | splice
  | fault (f : ResultField)
  | port (p : PortNum) (code : Fin 16)
  | lost
  | range
  deriving DecidableEq, Repr

/-- Where the gates have sent the blank (R33). -/
inductive Route where
  | stream
  | diverted
  | sampled
  deriving DecidableEq, Repr

/-- The outcome of counting (R132). -/
inductive BlankClass where
  | uncounted
  | good
  | divertedReject
  | passedReject
  | sample
  | voidSkip
  deriving DecidableEq, Repr

/-- Where a held record is (R22); EMPTY is a slot without a record. -/
inductive Place where
  | inLine
  | departed
  deriving DecidableEq, Repr

/-- A record of the Tracking Table (Table 2-1). `birth` is the model's own: it tells this record from any later one of
the same serial (R29, log 9). -/
structure Record where
  serial : Word
  birth : Nat
  place : Place
  kind : Kind
  job : JobNum
  results : Results
  reject : Option Reject
  further : Bool
  hold : Bool
  route : Route
  cls : BlankClass
  batch : Option Word
  batchEnd : Bool
  note : Byte
  deriving DecidableEq, Repr

/-- Whether the table can be trusted (R37). -/
inductive Tracking where
  | ready
  | lost
  deriving DecidableEq, Repr

/-- The Tracking Table. `advances` counts advances since the table was emptied (R27); `feed` and `splice` are the pin
levels at the latest advance (R26); `births` gives each record its identity (R29). -/
structure Ttb where
  slots : Bank (Option Record) 64
  l : Nat
  kc : Nat
  tracking : Tracking
  advances : Nat
  feed : Bool
  splice : Bool
  births : Nat
  deriving DecidableEq, Repr

/-- A serial a writer holds for a later write, with the identity of the record it was taken from; no identity when no
record was found (R29). -/
structure Held where
  serial : Word
  birth : Option Nat
  deriving DecidableEq, Repr

/-! ## Actuator channels (spec/05, spec/06) -/

/-- The condition on the gating record (Table 5-2). -/
inductive Gate where
  | always
  | present
  | presentAfter (f : ResultField)
  | rejected
  | sample
  | batchEnd
  deriving DecidableEq, Repr

/-- How a pulse ends (R96). -/
inductive PulseMode where
  | angle
  | time
  | timeLong
  | dots
  deriving DecidableEq, Repr

/-- A channel configuration (Table 5-1). Times are in microseconds, angles in counts. -/
structure ChanConfig where
  sp : Nat
  gate : Gate
  stamp : Option ResultField
  onAngle : Nat
  offAngle : Nat
  mode : PulseMode
  duration : Nat
  longDuration : Nat
  dotCount : Nat
  dot : Nat
  gap : Nat
  latencyOn : Nat
  latencyOff : Nat
  leadLimit : Nat
  minSpeed : Nat
  deriving DecidableEq, Repr

/-- What an arming latches (R114). Points are absolute counts modulo 65,536 × P (R113). -/
structure Latch where
  ct : Word
  onLead : Nat
  offLead : Nat
  aOn : Nat
  aOff : Option Nat
  deriving DecidableEq, Repr

/-- A running timer: the duration it was started with, in microseconds, and the CLK periods left (R119). -/
structure Timer where
  duration : Nat
  left : Nat
  deriving DecidableEq, Repr

/-- The change a pulse wrote into its gating record (R88). -/
inductive Stamp where
  | result (f : ResultField)
  | route (v : Route)
  deriving DecidableEq, Repr

/-- A pulse in progress: its gating serial, its stamp, the dots still to begin and its timer, idle in ANGLE mode and
for no other pulse. -/
structure Pulse where
  gating : Held
  stamp : Option Stamp
  dots : Nat
  timer : Option Timer
  deriving DecidableEq, Repr

/-- The state of a channel with what is held in it (Table 5-3). -/
inductive ChanState where
  | disabled
  | waiting
  | armed (l : Latch)
  | on (l : Latch) (pulse : Pulse)
  | gap (l : Latch) (pulse : Pulse)
  | claimed
  deriving DecidableEq, Repr

/-- One actuator channel (section 5.1). For the spell of inhibition in progress, `dropped` is the target cycle that its start
dropped, and `cut` the target cycle of the pulse that its start cut (R90, R91). -/
structure Channel where
  config : ChanConfig
  pending : Option ChanConfig
  state : ChanState
  due : Option Word
  overruns : Nat
  dropped : Option Word
  cut : Option Word
  deriving DecidableEq, Repr

/-- The name of a channel's state, as it is read (Table 10-3). -/
inductive ChanPhase where
  | disabled
  | waiting
  | armed
  | on
  | gap
  | claimed
  deriving DecidableEq, Repr

/-! ## Phase Unit (spec/01) -/

/-- A direction of the line (R3). -/
inductive Dir where
  | forward
  | backward
  deriving DecidableEq, Repr

/-- The levels of ENC_A and ENC_B last decoded (R1). -/
structure Quad where
  a : Bool
  b : Bool
  deriving DecidableEq, Repr

/-- Whether the phase is known (R4). -/
inductive PhaseState where
  | unsynced
  | synced
  deriving DecidableEq, Repr

/-- The sums of the four latest completed windows (R10). -/
structure Windows where
  newest : Int
  second : Int
  third : Int
  oldest : Int
  deriving DecidableEq, Repr

/-- What a snapshot holds of one channel (R15). -/
structure ChanView where
  phase : ChanPhase
  target : Word
  elapsed : Nat
  deriving DecidableEq, Repr

/-- A port's snapshot (R15). -/
structure Snapshot where
  cycle : Word
  mc : Nat
  speed : Int
  debt : Nat
  phase : PhaseState
  tracking : Tracking
  chans : Bank ChanView 16
  deriving DecidableEq, Repr

/-- The Phase Unit (Table 1-1). -/
structure Phu where
  mc : Nat
  p : Nat
  t : Nat
  phase : PhaseState
  missing : Nat
  debt : Nat
  cycle : Word
  sum : Int
  windows : Windows
  speed : Int
  lastDir : Option Dir
  quad : Quad
  snapshots : Bank (Option Snapshot) 8
  deriving DecidableEq, Repr

/-! ## Ports (spec/03) -/

/-- A port's privileges (section 3.2). -/
structure Privileges where
  setup : Bool
  batch : Bool
  deriving DecidableEq, Repr

/-- The direction of a window (R49). -/
inductive Direction where
  | up
  | down
  deriving DecidableEq, Repr

/-- The access of a window (R49). -/
inductive Access where
  | none
  | read
  | readWrite
  deriving DecidableEq, Repr

/-- A port's window (R49). -/
structure Window where
  base : Nat
  length : Nat
  direction : Direction
  access : Access
  deriving DecidableEq, Repr

/-- The kind of a captured fault (R61). -/
inductive FaultKind where
  | privilege
  | access
  | window
  | line
  deriving DecidableEq, Repr

/-- The contents of a captured fault; an absent part is none (Table 3-5). -/
structure FaultRecord where
  kind : FaultKind
  code : Byte
  index : Option Nat
  position : Option Nat
  serial : Option Word
  reference : Word
  deriving DecidableEq, Repr

/-- The state of a port's fault record (R61, R62). -/
inductive FaultState where
  | clear
  | frozen (more : Bool) (record : FaultRecord)
  deriving DecidableEq, Repr

/-- The outcome of a command (Table 10-4); `nothing` is the status NONE. -/
inductive Status where
  | ok
  | masked
  | late
  | unknown
  | window
  | access
  | line
  | privilege
  | frozen
  | busy
  | range
  | empty
  | short
  | unknownCmd
  | nothing
  deriving DecidableEq, Repr

/-- A response: status, code of the command answered, payload (R176). -/
structure Response where
  status : Status
  code : Byte
  payload : List Byte
  deriving DecidableEq, Repr

/-- One port's state in the Port Access Unit (Table 3-1). The bits of the mask are numbered by field code
(Table 10-3). -/
structure Port where
  privileges : Privileges
  window : Window
  mask : BitVec 10
  reference : Word
  fault : FaultState
  response : Response
  deriving DecidableEq, Repr

/-! ## Batches and jobs (spec/07, spec/08) -/

/-- A job slot (Table 8-1). -/
structure JobSlot where
  defined : Bool
  order : BitVec 24
  size : Nat
  next : Option Nat
  quota : Nat
  closed : Nat
  deriving DecidableEq, Repr

/-- The open batch (Table 7-1). -/
structure OpenBatch where
  number : Word
  job : JobNum
  ne : Nat
  good : Nat
  diverted : Nat
  passed : Nat
  sample : Nat
  firstSerial : Option Word
  lastSerial : Option Word
  lastInStack : Option Held
  oversize : Bool
  mixed : Bool
  contaminated : Bool
  closePending : Bool
  deriving DecidableEq, Repr

/-- A closed batch in the queue (Table 8-2). -/
structure BatchRecord where
  number : Word
  job : JobNum
  order : BitVec 24
  good : Nat
  diverted : Nat
  passed : Nat
  sample : Nat
  firstSerial : Option Word
  lastSerial : Option Word
  short : Bool
  oversize : Bool
  mixed : Bool
  contaminated : Bool
  forced : Bool
  closingCycle : Word
  deriving DecidableEq, Repr

/-- The Batch Forming Unit; the queue is oldest first (R153). -/
structure Bfu where
  jobs : Bank JobSlot 8
  cutJob : JobNum
  openBatch : OpenBatch
  queue : List BatchRecord
  qfull : Bool
  deriving DecidableEq, Repr

/-! ## Events (spec/09) -/

/-- The eleven events (Table 9-1). -/
inductive Event where
  | fault
  | batch
  | qhigh
  | qfull
  | job
  | lost
  | slip
  | reverse
  | channel
  | staged
  | sync
  deriving DecidableEq, Repr

/-- A set of events, its bits numbered as Table 10-3 numbers them. -/
abbrev EventSet := BitVec 11

/-- A port's request set and enable set (section 9.2). -/
structure EventSets where
  request : EventSet
  enable : EventSet
  deriving DecidableEq, Repr

/-! ## Bus and clock (spec/10) -/

/-- Why a write transaction is refused (R172, R174). -/
inductive Refused where
  | unknownCode
  | badLength
  deriving DecidableEq, Repr

/-- The Bus Target Interface (Table 10-1), with the port, the code and the operand bytes of the transaction, or the
bytes already sent. -/
inductive Bti where
  | init
  | idle
  | code (p : PortNum)
  | operands (p : PortNum) (code : Byte) (got : List Byte)
  | complete (p : PortNum) (code : Byte) (got : List Byte)
  | refusing (p : PortNum) (code : Byte) (why : Refused)
  | read (p : PortNum) (sent : Nat)
  deriving DecidableEq, Repr

/-- CLK periods gone of the present 1 ms window (R10) and of INIT (R170). -/
structure Clock where
  window : Nat
  init : Nat
  deriving DecidableEq, Repr

/-- The whole part. `straps` are the pins read at the end of reset; `sda` is what the part sent in its latest read
transaction (R177); `frees` counts the free choices made; `pending` is the queue of commands, first in, first out. -/
structure State where
  phu : Phu
  ttb : Ttb
  ports : Bank Port 8
  chans : Bank Channel 16
  bfu : Bfu
  events : Bank EventSets 8
  bti : Bti
  straps : ResetPins
  clock : Clock
  sda : List Byte
  frees : Nat
  pending : List Instr
  deriving DecidableEq, Repr

/-- Why the part stops: never. Every row of the table has an effect in every state, so there is no reason to list
(safe: nothing raises one). -/
inductive Fault where
  deriving DecidableEq, Repr

/-- Why the model has no meaning for a command. -/
inductive Refusal where
  /-- Raised by `exec` alone, for a row not modelled yet; safe. No row raises it. -/
  | notModelled (mnemonic : String)
  deriving DecidableEq, Repr

/-! ## Reset values -/

/-- R17. ENC_A and ENC_B are decoded from the levels they hold at the end of reset. -/
def Phu.reset (pins : ResetPins) : Phu where
  mc := 0
  p := 4096
  t := 4
  phase := .unsynced
  missing := 0
  debt := 0
  cycle := 0
  sum := 0
  windows := ⟨0, 0, 0, 0⟩
  speed := 0
  lastDir := none
  quad := ⟨pins.encA, pins.encB⟩
  snapshots := Bank.fill 8 none

/-- R45. -/
def Ttb.reset : Ttb where
  slots := Bank.fill 64 none
  l := 24
  kc := 20
  tracking := .ready
  advances := 0
  feed := false
  splice := false
  births := 0

/-- R108. -/
def ChanConfig.reset : ChanConfig where
  sp := 0
  gate := .always
  stamp := none
  onAngle := 0
  offAngle := 0
  mode := .time
  duration := 1
  longDuration := 1
  dotCount := 1
  dot := 1
  gap := 1
  latencyOn := 0
  latencyOff := 0
  leadLimit := 2048
  minSpeed := 0

/-- R108, R126. -/
def Channel.reset : Channel where
  config := ChanConfig.reset
  pending := none
  state := .disabled
  due := none
  overruns := 0
  dropped := none
  cut := none

/-- The response held after a reset (R66, R176). -/
def Response.initial : Response := ⟨.nothing, 0x00, []⟩

/-- R71, ports 1 to 7. -/
def Port.reset : Port where
  privileges := ⟨false, false⟩
  window := ⟨0, 1, .up, .none⟩
  mask := 0
  reference := 0
  fault := .clear
  response := Response.initial

/-- R71, port 0. -/
def Port.resetSupervisor : Port :=
  { Port.reset with privileges := ⟨true, true⟩, window := ⟨0, 16, .up, .read⟩ }

/-- R158, slots 1 to 7. -/
def JobSlot.reset : JobSlot where
  defined := false
  order := 0
  size := 100
  next := none
  quota := 0
  closed := 0

/-- A batch that has counted nothing (R138, R145). -/
def OpenBatch.fresh (number : Word) (job : JobNum) (ne : Nat) : OpenBatch where
  number := number
  job := job
  ne := ne
  good := 0
  diverted := 0
  passed := 0
  sample := 0
  firstSerial := none
  lastSerial := none
  lastInStack := none
  oversize := false
  mixed := false
  contaminated := false
  closePending := false

/-- R145, R158. -/
def Bfu.reset : Bfu where
  jobs := (Bank.fill 8 JobSlot.reset).put 0 { JobSlot.reset with defined := true }
  cutJob := 0
  openBatch := OpenBatch.fresh 0 0 100
  queue := []
  qfull := false

/-- The part after power-on reset or RST with the pins at the levels given (R17, R45, R71, R108, R126, R145, R158,
R167, R170). The queue and the model's count of free choices are not the part's. -/
def State.resetWith (pins : ResetPins) (frees : Nat) (pending : List Instr) : State where
  phu := Phu.reset pins
  ttb := Ttb.reset
  ports := (Bank.fill 8 Port.reset).put 0 Port.resetSupervisor
  chans := Bank.fill 16 Channel.reset
  bfu := Bfu.reset
  events := Bank.fill 8 ⟨0, 0⟩
  bti := .init
  straps := pins
  clock := ⟨0, 0⟩
  sda := []
  frees := frees
  pending := pending

/-- The machine right after reset. The pin levels are the model's choice (log 1): every pin low. -/
def State.reset : State := State.resetWith ⟨0, false, false, false⟩ 0 []

end Sys2Proof.Machine
end

