-- ==== Sys2Proof/Machine/Flags.lean ====
section
/-! DEFINITION. Events, attention lines, outputs, and the codes in which states and outcomes are sent. -/

namespace Sys2Proof.Machine

/-! ## Events (spec/09) -/

/-- The bit of an event in a set (Table 10-3). -/
def Event.bit : Event → Nat
  | .fault => 0
  | .batch => 1
  | .qhigh => 2
  | .qfull => 3
  | .job => 4
  | .lost => 5
  | .slip => 6
  | .reverse => 7
  | .channel => 8
  | .staged => 9
  | .sync => 10

/-- The set that holds one event. -/
def Event.only (e : Event) : EventSet := 1#11 <<< e.bit

/-- Adding an event to a port's request set (R159). -/
def EventSets.add (e : Event) (x : EventSets) : EventSets := { x with request := x.request ||| e.only }

/-- Raising an event to all ports (R159). -/
def State.raise (e : Event) (s : State) : State := { s with events := s.events.map (EventSets.add e) }

/-- Raising an event to one port (R159). -/
def State.raiseTo (p : PortNum) (e : Event) (s : State) : State :=
  { s with events := s.events.modify p (EventSets.add e) }

/-- Raising an event to all ports if a condition holds. -/
def State.raiseIf (c : Bool) (e : Event) (s : State) : State := if c then s.raise e else s

/-- Is ATTNp asserted (R161)? -/
def EventSets.attn (x : EventSets) : Bool := x.request &&& x.enable != 0

/-- Is the attention line of port `p` asserted (R161)? -/
def State.attn (s : State) (p : PortNum) : Bool := (s.events.get p).attn

/-! ## Channel states as they are read (R89, Table 10-3) -/

/-- The name of a channel's state. -/
def ChanState.phase : ChanState → ChanPhase
  | .disabled => .disabled
  | .waiting => .waiting
  | .armed _ => .armed
  | .on _ _ => .on
  | .gap _ _ => .gap
  | .claimed => .claimed

/-- Is OUTk active (R89)? -/
def State.out (s : State) (k : ChanNum) : Bool := (s.chans.get k).state.phase == .on

/-- The code of a channel state (Table 10-3). -/
def ChanPhase.code : ChanPhase → Byte
  | .disabled => 0
  | .waiting => 1
  | .armed => 2
  | .on => 3
  | .gap => 4
  | .claimed => 5

/-! ## Status codes (Table 10-4) -/

/-- The code of a status. -/
def Status.code : Status → Byte
  | .ok => 0x00
  | .masked => 0x01
  | .late => 0x02
  | .unknown => 0x03
  | .window => 0x10
  | .access => 0x11
  | .line => 0x12
  | .privilege => 0x13
  | .frozen => 0x20
  | .busy => 0x21
  | .range => 0x22
  | .empty => 0x23
  | .short => 0x30
  | .unknownCmd => 0x31
  | .nothing => 0x3F

/-- The status that refuses a command for a fault (R61). -/
def FaultKind.status : FaultKind → Status
  | .privilege => .privilege
  | .access => .access
  | .window => .window
  | .line => .line

/-- The code of a fault kind (Table 10-3). -/
def FaultKind.code : FaultKind → Byte
  | .privilege => 1
  | .access => 2
  | .window => 3
  | .line => 4

/-- Is the fault record FROZEN (R61)? -/
def FaultState.isFrozen : FaultState → Bool
  | .clear => false
  | .frozen _ _ => true

/-! ## Field codes (Table 10-3) -/

/-- The code of a result field. -/
def ResultField.code : ResultField → Nat
  | .cut => 2
  | .win => 3
  | .patch => 4
  | .gum => 5
  | .fold => 6
  | .inspect => 7

/-- The result field of a code, if the code names one. -/
def resultFieldOf : Nat → Option ResultField
  | 2 => some .cut
  | 3 => some .win
  | 4 => some .patch
  | 5 => some .gum
  | 6 => some .fold
  | 7 => some .inspect
  | _ => none

/-- The result field numbered from 0, for a free choice among the six. -/
def resultFieldNumbered : Fin 6 → ResultField
  | 0 => .cut
  | 1 => .win
  | 2 => .patch
  | 3 => .gum
  | 4 => .fold
  | 5 => .inspect

/-- The phase and tracking byte: bit 0 SYNCED, bit 1 LOST. -/
def phaseTrackingByte (ph : PhaseState) (tr : Tracking) : Byte :=
  (if ph = .synced then 1 else 0) ||| (if tr = .lost then 2 else 0)

/-- The tracking state byte of READ_LINE. -/
def Tracking.code : Tracking → Byte
  | .ready => 0
  | .lost => 1

/-- A yes or no as a bit at place `n` of a byte. -/
def flagBit (b : Bool) (n : Nat) : Byte := if b then 1#8 <<< n else 0

end Sys2Proof.Machine
end

