-- ==== Sys2Proof/Machine/Ops.lean ====
section
/-! DEFINITION. The operations every meaning is written over: ports and their responses, the fault record, the rules of
the Tracking Table, and the taking of a command. -/

namespace Sys2Proof.Machine

/-! ## Ports, responses and faults -/

/-- Changing one port. -/
def State.modPort (p : PortNum) (f : Port → Port) (s : State) : State := { s with ports := s.ports.modify p f }

/-- Changing one channel. -/
def State.modChan (k : ChanNum) (f : Channel → Channel) (s : State) : State := { s with chans := s.chans.modify k f }

/-- A command's answer replaces the port's response buffer whole (R66). -/
def State.answer (p : PortNum) (status : Status) (code : Byte) (payload : List Byte) (s : State) : State :=
  s.modPort p fun q => { q with response := ⟨status, code, payload⟩ }

/-- A fault found while CLEAR is captured and freezes the record (R61); one found while FROZEN sets MORE (R62). -/
def FaultState.meet (f : FaultRecord) : FaultState → FaultState
  | .clear => .frozen false f
  | .frozen _ first => .frozen true first

/-- Finding a fault on a port: capture, raise FAULT to the port at a capture, refuse with the kind as status (R61,
R62). -/
def State.fault (p : PortNum) (f : FaultRecord) (s : State) : State :=
  let captured := !(s.ports.get p).fault.isFrozen
  let s := s.modPort p fun q => { q with fault := q.fault.meet f }
  let s := if captured then s.raiseTo p .fault else s
  s.answer p f.kind.status f.code []

/-- A command whose privilege the port lacks is a PRIVILEGE fault; the check comes before every operand check (R48). -/
def State.privileged (p : PortNum) (code : Byte) (allowed : Bool) (body : State → State) (s : State) : State :=
  if allowed then body s
  else s.fault p ⟨.privilege, code, none, none, none, (s.ports.get p).reference⟩

/-- Does port `p` hold SETUP? -/
def State.hasSetup (s : State) (p : PortNum) : Bool := (s.ports.get p).privileges.setup

/-- Does port `p` hold BATCH? -/
def State.hasBatch (s : State) (p : PortNum) : Bool := (s.ports.get p).privileges.batch

/-! ## Taking a command (R51, R170, R175) -/

/-- The address acknowledge latches the cycle number as the port's reference cycle (R51). -/
def State.latchReference (p : PortNum) (s : State) : State :=
  s.modPort p fun q => { q with reference := s.phu.cycle }

/-- The write transaction a command row belongs to: the one whose address the part has acknowledged on this port, or
else a new one, whose acknowledge latches the reference cycle (R51, R172, log 5). -/
def State.openWrite (p : PortNum) (s : State) : State := if s.bti = .code p then s else s.latchReference p

/-- A write transaction on port `p` that ends in COMPLETE or is discarded: no effect in INIT (R170), otherwise `body`
at its end, after which the bus is IDLE (R171, R175). -/
def transact (p : PortNum) (body : State → State) (s : State) : Host.Outcome State Fault Refusal :=
  if s.bti = .init then .next s else .next { body (s.openWrite p) with bti := .idle }

/-! ## The Tracking Table (spec/02) -/

/-- The slot of a serial (R19). -/
def slotOf (serial : Word) : Fin 64 := ⟨serial.toNat % 64, Nat.mod_lt _ (by decide)⟩

/-- The lookup of a serial (R20). -/
def Ttb.lookup (t : Ttb) (serial : Word) : Option Record :=
  match t.slots.get (slotOf serial) with
  | none => none
  | some r => if r.serial = serial then some r else none

/-- Writing the record a lookup finds; nothing if it finds none (R29). -/
def Ttb.write (serial : Word) (f : Record → Record) (t : Ttb) : Ttb :=
  match t.lookup serial with
  | none => t
  | some r => { t with slots := t.slots.put (slotOf serial) (some (f r)) }

/-- The record a held serial was taken from, if it is still in its slot (R29). -/
def Ttb.lookupHeld (t : Ttb) (h : Held) : Option Record :=
  match t.lookup h.serial with
  | none => none
  | some r => if h.birth = some r.birth then some r else none

/-- Writing the record a held serial was taken from; nothing if that record is gone (R29). -/
def Ttb.writeHeld (h : Held) (f : Record → Record) (t : Ttb) : Ttb :=
  match t.lookupHeld h with
  | none => t
  | some _ => t.write h.serial f

/-- Changing every record held. -/
def Ttb.mapRecords (f : Record → Record) (t : Ttb) : Ttb := { t with slots := t.slots.map (Option.map f) }

/-- How many records held pass `f`. -/
def Ttb.countRecords (t : Ttb) (f : Record → Bool) : Nat := t.slots.count fun r => r.any f

/-- The position of a record: the cycle number minus its serial (R21). -/
def Record.position (cycle : Word) (r : Record) : Nat := (cycle - r.serial).toNat

/-- Is the record IN_LINE? -/
def Record.inLine (r : Record) : Bool := r.place == .inLine

/-- A blank that is not VOID on the line: what LOST and RANGE reject (R37, R41). -/
def Record.untrusted (r : Record) : Bool := r.inLine && r.kind != .void

/-- An uncounted blank before Kc: it holds back SET_LINE (R42) and its job (R147). -/
def Record.uncountedBlank (r : Record) : Bool := r.untrusted && r.cls == .uncounted

/-- Rejecting a record (R31). -/
def Record.rejectWith (why : Reject) (r : Record) : Record :=
  match r.reject with
  | none => { r with reject := some why }
  | some _ => { r with further := true }

/-- Rejecting a record if a condition holds. -/
def Record.rejectIf (c : Bool) (why : Reject) (r : Record) : Record := if c then r.rejectWith why else r

/-- The value of a result field. -/
def Results.get (x : Results) : ResultField → Result
  | .cut => x.cut
  | .win => x.win
  | .patch => x.patch
  | .gum => x.gum
  | .fold => x.fold
  | .inspect => x.inspect

/-- The results with one field changed. -/
def Results.set (x : Results) (f : ResultField) (v : Result) : Results :=
  match f with
  | .cut => { x with cut := v }
  | .win => { x with win := v }
  | .patch => { x with patch := v }
  | .gum => { x with gum := v }
  | .fold => { x with fold := v }
  | .inspect => { x with inspect := v }

/-- Is a write of `v` to a result field that holds `held` taken (R30)? -/
def Result.takes (held v : Result) : Bool :=
  match held, v with
  | _, .none => false
  | .fault, .done => false
  | _, _ => true

/-- The result merge rule: a taken write sets the field, and a change to FAULT rejects the record (R30). -/
def Record.mergeResult (f : ResultField) (v : Result) (r : Record) : Record :=
  let held := r.results.get f
  if held.takes v then
    Record.rejectIf (v == .fault && held != .fault) (.fault f) { r with results := r.results.set f v }
  else r

/-- A port's kind write below Kc (R34): writing SPLICE rejects; a VOID made a blank while LOST is rejected. -/
def Record.writeKind (tracking : Tracking) (k : Kind) (r : Record) : Record :=
  let madeBlank := r.kind == .void && k != .void
  let written : Record := { r with kind := k }
  (written.rejectIf (k == .splice) .splice).rejectIf (tracking == .lost && madeBlank) .lost

/-- A channel's stamp (R88): DONE through the merge rule, or the route. -/
def Record.stampWith (st : Stamp) (r : Record) : Record :=
  match st with
  | .result f => r.mergeResult f .done
  | .route v => { r with route := v }

/-- The reversal of a cut pulse's stamp (R98): FAULT through the merge rule, or the route back to STREAM if it still
holds the stamped value (R33). -/
def Record.unstamp (st : Stamp) (r : Record) : Record :=
  match st with
  | .result f => r.mergeResult f .fault
  | .route v => if r.route = v then { r with route := .stream } else r

/-- Changing the Tracking Table. -/
def State.modTable (f : Ttb → Ttb) (s : State) : State := { s with ttb := f s.ttb }

/-- Entering LOST (R37). -/
def State.enterLost (s : State) : State :=
  (s.modTable fun t =>
    { t.mapRecords (fun r => r.rejectIf r.untrusted .lost) with tracking := .lost }).raise .lost

/-! ## Free order (log 3) -/

/-- Placing `k` among channels already in turn. -/
def insertByTurn (turn : Nat → Nat) (k : ChanNum) : List ChanNum → List ChanNum
  | [] => [k]
  | j :: rest => if turn k.val ≤ turn j.val then k :: j :: rest else j :: insertByTurn turn k rest

/-- The channels of a list in the order of their turns. -/
def inTurn (turn : Nat → Nat) : List ChanNum → List ChanNum
  | [] => []
  | k :: rest => insertByTurn turn k (inTurn turn rest)

/-- The sixteen channels. -/
def allChans : List ChanNum := [0, 1, 2, 3, 4, 5, 6, 7, 8, 9, 10, 11, 12, 13, 14, 15]

end Sys2Proof.Machine
end

