-- ==== Sys2Proof/Machine/Operands.lean ====
section
/-! DEFINITION. Reading operands: numbers that name a port, a channel or a slot, field lists, channel configurations,
port configurations, and the mapping of record addresses through a port's window. -/

namespace Sys2Proof.Machine

/-! ## Numbers -/

/-- The port a byte names, if it names one. -/
def namedPort (b : Byte) : Option PortNum := if h : b.toNat < 8 then some ⟨b.toNat, h⟩ else none

/-- The channel a byte names, if it names one. -/
def namedChan (b : Byte) : Option ChanNum := if h : b.toNat < 16 then some ⟨b.toNat, h⟩ else none

/-- The job slot a byte names, if it names one. -/
def namedJob (b : Byte) : Option JobNum := if h : b.toNat < 8 then some ⟨b.toNat, h⟩ else none

/-- The event set a word names; none if it sets a bit that names nothing (R163, R164). -/
def namedEvents (w : Word) : Option EventSet :=
  if w.extractLsb' 11 5 = 0 then some (w.extractLsb' 0 11) else none

/-! ## SET_PORT (R67, Table 10-3) -/

/-- The privileges a byte names. -/
def namedPrivileges (b : Byte) : Option Privileges :=
  if b.extractLsb' 2 6 = 0 then some ⟨b.getLsbD 0, b.getLsbD 1⟩ else none

/-- The access a window's byte names in its bits 1..0. -/
def namedAccess (b : Byte) : Option Access :=
  match (b.extractLsb' 0 2).toNat with
  | 0 => some .none
  | 1 => some .read
  | 2 => some .readWrite
  | _ => none

/-- The window that base, length, and direction and access bytes name. -/
def namedWindow (base length dirAccess : Byte) : Option Window :=
  if 47 < base.toNat ∨ length.toNat = 0 ∨ 16 < length.toNat ∨ dirAccess.extractLsb' 3 5 ≠ 0 then none
  else (namedAccess dirAccess).map fun a =>
    ⟨base.toNat, length.toNat, if dirAccess.getLsbD 2 then .down else .up, a⟩

/-- The field mask a word names. -/
def namedMask (w : Word) : Option (BitVec 10) :=
  if w.extractLsb' 10 6 = 0 then some (w.extractLsb' 0 10) else none

/-! ## SET_CHANNEL (R103, R179) -/

/-- The gate that the gate byte and the gate-field byte name; the latter is read for PRESENT_AFTER alone. -/
def namedGate (gate field : Byte) : Option Gate :=
  match gate.toNat with
  | 0 => some .always
  | 1 => some .present
  | 2 => (resultFieldOf field.toNat).map .presentAfter
  | 3 => some .rejected
  | 4 => some .sample
  | 5 => some .batchEnd
  | _ => none

/-- The gates that may carry a result stamp (R86). -/
def Gate.mayStamp : Gate → Bool
  | .present => true
  | .presentAfter _ => true
  | _ => false

/-- The stamp that a stamp byte names for a gate: 0xFF is none. -/
def namedStamp (g : Gate) (b : Byte) : Option (Option ResultField) :=
  if b = 0xFF then some none
  else if g.mayStamp then (resultFieldOf b.toNat).map some
  else none

/-- The mode that a mode byte names. -/
def namedMode (b : Byte) : Option PulseMode :=
  match b.toNat with
  | 0 => some .angle
  | 1 => some .time
  | 2 => some .timeLong
  | 3 => some .dots
  | _ => none

/-- Do the operands of the mode stand in their ranges (R103)? Operands of other modes are not checked. -/
def ChanConfig.modeOk (p : Nat) (odd : Bool) (c : ChanConfig) : Bool :=
  match c.mode with
  | .angle => c.offAngle < p
  | .time => c.duration != 0
  | .timeLong => c.longDuration != 0 && !odd
  | .dots => 1 ≤ c.dotCount && c.dotCount ≤ 15 && c.dot != 0 && c.gap != 0

/-- The longest latency a configuration holds (R86). -/
def latencyLimit : Nat := 20000

/-- The configuration that 28 bytes give for a channel, latencies and lead limit clamped; none where R103 refuses with
RANGE. -/
def namedConfig (l p : Nat) (odd : Bool) (raw : RawConfig) : Option ChanConfig :=
  match namedGate raw.gate raw.gateField, namedMode raw.mode with
  | some gate, some mode =>
    match namedStamp gate raw.stamp with
    | some stamp =>
      let c : ChanConfig :=
        { sp := raw.sp.toNat, gate := gate, stamp := stamp, onAngle := raw.onAngle.toNat,
          offAngle := raw.offAngle.toNat, mode := mode, duration := raw.duration.toNat,
          longDuration := raw.longDuration.toNat, dotCount := raw.dotCount.toNat, dot := raw.dot.toNat,
          gap := raw.gap.toNat, latencyOn := min raw.latencyOn.toNat latencyLimit,
          latencyOff := min raw.latencyOff.toNat latencyLimit, leadLimit := min raw.leadLimit.toNat (p - 1),
          minSpeed := raw.minSpeed.toNat }
      if c.sp < l ∧ c.onAngle < p ∧ c.minSpeed ≤ 32767 ∧ c.modeOk p odd = true then some c else none
    | none => none
  | _, _ => none

/-! ## Field lists (R81, Table 4-2) -/

/-- One entry of a field list with its value (Table 4-2). -/
inductive Entry where
  | kind (k : Kind)
  | reject (code : Fin 16)
  | result (f : ResultField) (v : Result)
  | hold (b : Bool)
  | note (v : Byte)
  deriving DecidableEq, Repr

/-- The field code of an entry (Table 10-3). -/
def Entry.field : Entry → Fin 10
  | .kind _ => 0
  | .reject _ => 1
  | .result .cut _ => 2
  | .result .win _ => 3
  | .result .patch _ => 4
  | .result .gum _ => 5
  | .result .fold _ => 6
  | .result .inspect _ => 7
  | .hold _ => 8
  | .note _ => 9

/-- The kind a byte names. -/
def namedKind (b : Byte) : Option Kind :=
  match b.toNat with
  | 0 => some .blank
  | 1 => some .void
  | 2 => some .splice
  | _ => none

/-- The result a byte names. -/
def namedResult (b : Byte) : Option Result :=
  match b.toNat with
  | 0 => some .none
  | 1 => some .done
  | 2 => some .fault
  | _ => none

/-- The entry that a field code and a value give; none for an unknown field or a value out of range. -/
def namedEntry (e : RawEntry) : Option Entry :=
  match e.field.toNat with
  | 0 => (namedKind e.value).map .kind
  | 1 => if h : e.value.toNat < 16 then some (.reject ⟨e.value.toNat, h⟩) else none
  | 8 => if e.value = 0 then some (.hold false) else if e.value = 1 then some (.hold true) else none
  | 9 => some (.note e.value)
  | n =>
    match resultFieldOf n with
    | some f => (namedResult e.value).map (.result f)
    | none => none

/-- The entries of a list, if every one is well formed and no field is named twice (R81). -/
def namedEntries : List RawEntry → Option (List Entry)
  | [] => some []
  | e :: rest =>
    match namedEntry e, namedEntries rest with
    | some x, some xs => if xs.any (fun y => y.field == x.field) then none else some (x :: xs)
    | _, _ => none

/-! ## Addresses of records (R52, R53) -/

/-- The position of a local index in a port's window; none for a DOWN mapping below 0 (R52). -/
def Window.positionOf (w : Window) (i : Nat) : Option Nat :=
  match w.direction with
  | .up => some (w.base + i)
  | .down => if i ≤ w.base then some (w.base - i) else none

/-- The local index of a position, if the window covers it (R53). -/
def Window.indexOf (w : Window) (pos : Nat) : Option Nat :=
  match w.direction with
  | .up => if w.base ≤ pos ∧ pos - w.base < w.length then some (pos - w.base) else none
  | .down => if pos ≤ w.base ∧ w.base - pos < w.length then some (w.base - pos) else none

/-- The serial that stood at a position at the reference cycle (R52). -/
def Port.serialAt (q : Port) (pos : Nat) : Word := q.reference - BitVec.ofNat 16 pos

/-- The position of a serial at the reference cycle (R53). -/
def Port.positionOfSerial (q : Port) (serial : Word) : Nat := (q.reference - serial).toNat

/-- Does a window's access allow a table read, or a table write (R49, R56)? -/
def Access.allows (a : Access) (write : Bool) : Bool :=
  match a with
  | .none => false
  | .read => !write
  | .readWrite => true

/-- The outcome of the checks before the lookup (R54). -/
inductive Reach where
  /-- the frozen check stops the write (R55) -/
  | frozen
  /-- an access, window or line fault -/
  | fault (f : FaultRecord)
  /-- the checks pass and the serial is looked up -/
  | serial (s : Word)
  deriving DecidableEq, Repr

/-- The frozen, access, window and line checks of a command that names a record by local index (R54 to R58). -/
def Port.reachIndex (q : Port) (l : Nat) (write : Bool) (code : Byte) (i : Nat) : Reach :=
  if write && q.fault.isFrozen then .frozen
  else if !q.window.access.allows write then .fault ⟨.access, code, some i, none, none, q.reference⟩
  else if q.window.length ≤ i then .fault ⟨.window, code, some i, none, none, q.reference⟩
  else
    match q.window.positionOf i with
    | none => .fault ⟨.line, code, some i, none, none, q.reference⟩
    | some pos =>
      if pos < l then .serial (q.serialAt pos)
      else .fault ⟨.line, code, some i, some pos, some (q.serialAt pos), q.reference⟩

/-- The same checks for a command that names a record by serial (R53 to R58). -/
def Port.reachSerial (q : Port) (l : Nat) (write : Bool) (code : Byte) (serial : Word) : Reach :=
  let pos := q.positionOfSerial serial
  if write && q.fault.isFrozen then .frozen
  else if !q.window.access.allows write then .fault ⟨.access, code, none, none, some serial, q.reference⟩
  else
    match q.window.indexOf pos with
    | none => .fault ⟨.window, code, none, some pos, some serial, q.reference⟩
    | some i => if pos < l then .serial serial else .fault ⟨.line, code, some i, some pos, some serial, q.reference⟩

end Sys2Proof.Machine
end

