-- ==== Sys2Proof/Machine/Pulses.lean ====
section
/-! DEFINITION. What happens inside a channel: leads and points, arming, the on event, the end and the cut of a pulse,
inhibition, and pairs (spec/05, spec/06). -/

namespace Sys2Proof.Machine

/-! ## The absolute count (R12) -/

/-- A count of the line: a cycle number and the count within the cycle. -/
structure Count where
  cycle : Word
  mc : Nat
  deriving DecidableEq, Repr

/-- Where the line stands. -/
def Phu.count (u : Phu) : Count := ⟨u.cycle, u.mc⟩

/-- Is the absolute count presented to the channels (R12)? Where it is not, they are inhibited (R90). -/
def Phu.presented (u : Phu) : Bool := u.phase == .synced && u.debt == 0

/-- The modulus of absolute counts. -/
def countModulus (p : Nat) : Nat := 65536 * p

/-- The absolute count modulo 65,536 × P (R12). -/
def Count.absolute (x : Count) (p : Nat) : Nat := x.cycle.toNat * p + x.mc

/-- `a - b` taken modulo `m` as a signed number (R12); exactly half of `m` is negative (DEDUCED, log 25). -/
def signedDiff (m a b : Nat) : Int :=
  let d := (a + m - b % m) % m
  if 2 * d < m then d else (d : Int) - m

/-- Has the count reached the point: is count minus point 0 or positive (R113)? -/
def Count.reached (x : Count) (p point : Nat) : Bool := 0 ≤ signedDiff (countModulus p) (x.absolute p) point

/-! ## Leads and points (R109 to R113) -/

/-- The lead for a latency at a speed, clamped to the lead limit (R109). -/
def leadOf (speed : Int) (latency limit : Nat) : Nat := min ((speed.toNat * latency + 2000) / 4000) limit

/-- How many cycles after that of the count the target cycle lies (R113): `r` is the on angle minus the on lead. -/
def targetOffset (p mc : Nat) (r : Int) : Nat :=
  if (mc : Int) < r then 0 else if (mc : Int) < r + p then 1 else 2

/-- The leads and points of the target cycle `ct` at speed `speed` (R109 to R112). -/
def ChanConfig.latchFor (c : ChanConfig) (p : Nat) (speed : Int) (ct : Word) : Latch :=
  let onLead := leadOf speed c.latencyOn c.leadLimit
  let offLead := leadOf speed c.latencyOff c.leadLimit
  let start : Int := (ct.toNat * p : Nat)
  let on := start + c.onAngle - onLead
  let off := start + c.offAngle - offLead + (if c.offAngle ≤ c.onAngle then (p : Int) else 0)
  let off := if off ≤ on then on + 1 else off
  let m : Int := countModulus p
  { ct := ct, onLead := onLead, offLead := offLead, aOn := (on % m).toNat,
    aOff := if c.mode = .angle then some (off % m).toNat else none }

/-- What an arming latches, against the count `x` at speed `speed`: the earliest target cycle whose on point lies after the
count (R92, R113). -/
def ChanConfig.latch (c : ChanConfig) (p : Nat) (speed : Int) (x : Count) : Latch :=
  let r : Int := (c.onAngle : Int) - leadOf speed c.latencyOn c.leadLimit
  c.latchFor p speed (x.cycle + BitVec.ofNat 16 (targetOffset p x.mc r))

/-- Does cycle `a` lie after cycle `b`, by the signed difference modulo 65,536 (R92)? -/
def cycleAfter (a b : Word) : Bool := 0 < (a - b).toInt

/-- The cycle `a`, or a bound at most two cycles after it. A target lies at most two cycles after the line's, and the cycle of
a pulse at most one (R113), so a bound further off is a cycle long behind whose number has come round. -/
def notBefore (a : Word) (bound : Option Word) : Word :=
  match bound with
  | none => a
  | some b => if (b - a).toNat ≤ 2 then b else a

/-- A count that stays at 65,535 (R93, R133, R152). -/
def saturate (n : Nat) : Nat := min n 65535

/-! ## Arming (R92, R93) -/

/-- Would the target cycle pass the due cycle (R93)? -/
def Channel.overruns? (ch : Channel) (ct : Word) : Bool := ch.due.any fun d => cycleAfter ct d

/-- A channel armed against the count `x`. -/
def Channel.armAt (p : Nat) (speed : Int) (x : Count) (ch : Channel) : Channel :=
  let l := ch.config.latch p speed x
  { ch with state := .armed l, overruns := if ch.overruns? l.ct then saturate (ch.overruns + 1) else ch.overruns }

/-- Arming channel `k` against the count `x`; an overrun raises CHANNEL (R92, R93). -/
def State.arm (k : ChanNum) (x : Count) (s : State) : State :=
  let ch := s.chans.get k
  (s.modChan k (Channel.armAt s.phu.p s.phu.speed x)).raiseIf
    (ch.overruns? (ch.config.latch s.phu.p s.phu.speed x).ct) .channel

/-! ## Pairs for long pulses (R102) -/

/-- The odd partner of an even channel. -/
def partnerOf (k : ChanNum) : ChanNum := ⟨k.val / 2 * 2 + 1, by have := k.isLt; omega⟩

/-- Is the channel the even one of its pair? -/
def isEven (k : ChanNum) : Bool := k.val % 2 == 0

/-- Does the applied or the pending configuration have mode TIME_LONG? -/
def Channel.holdsLong (ch : Channel) : Bool :=
  ch.config.mode == .timeLong || ch.pending.any fun c => c.mode == .timeLong

/-- The partner's state as the pair asks: CLAIMED while the even channel holds TIME_LONG, released to DISABLED when it
no longer does. -/
def Channel.pairWith (long : Bool) (ch : Channel) : Channel :=
  if long then { ch with state := .claimed }
  else if ch.state = .claimed then { ch with state := .disabled } else ch

/-- The pair of channel `k` after a configuration of `k` has changed; the configuration of an odd channel claims
nothing. -/
def State.settlePair (k : ChanNum) (s : State) : State :=
  if isEven k then s.modChan (partnerOf k) (Channel.pairWith (s.chans.get k).holdsLong) else s

/-! ## Pending configuration (R101) -/

/-- The pending configuration, if one is held, becomes the applied one, and STAGED is raised. -/
def State.applyPending (k : ChanNum) (s : State) : State :=
  match (s.chans.get k).pending with
  | none => s
  | some c => ((s.modChan k fun ch => { ch with config := c, pending := none }).raise .staged).settlePair k

/-! ## Timers (R119, R124) -/

/-- A timer started with a duration in microseconds. -/
def Timer.start (duration : Nat) : Timer := ⟨duration, duration * Config.clkPerMicrosecond⟩

/-- The time remaining in whole microseconds, rounded up. -/
def Timer.remaining (t : Timer) : Nat := (t.left + (Config.clkPerMicrosecond - 1)) / Config.clkPerMicrosecond

/-- The elapsed time in whole microseconds (R124). -/
def Timer.elapsed (t : Timer) : Nat := t.duration - t.remaining

/-- The timer a pulse starts with (R120 to R122); an ANGLE pulse uses none. -/
def ChanConfig.firstTimer (c : ChanConfig) : Option Timer :=
  match c.mode with
  | .angle => none
  | .time => some (Timer.start c.duration)
  | .timeLong => some (Timer.start c.longDuration)
  | .dots => some (Timer.start c.dot)

/-- The pulse in progress, while ON or GAP. -/
def ChanState.pulse : ChanState → Option Pulse
  | .on _ pulse => some pulse
  | .gap _ pulse => some pulse
  | _ => none

/-- What the last arming latched, while ARMED, ON or GAP. -/
def ChanState.latch : ChanState → Option Latch
  | .armed l => some l
  | .on l _ => some l
  | .gap l _ => some l
  | _ => none

/-- The channel's timer: idle outside a timed pulse (R119, R123). -/
def ChanState.timer (c : ChanState) : Option Timer := c.pulse.bind Pulse.timer

/-- The elapsed microseconds of a channel (R124). -/
def ChanState.elapsed (c : ChanState) : Nat :=
  match c.timer with
  | none => 0
  | some t => t.elapsed

/-! ## Gate and stamp (R87, R88) -/

/-- Does the gate pass on the gating record? A lookup that finds none fails every gate but ALWAYS (R87). -/
def Gate.passes (g : Gate) (found : Option Record) : Bool :=
  match g, found with
  | .always, _ => true
  | _, none => false
  | .present, some r => r.kind == .blank && r.reject.isNone
  | .presentAfter f, some r => r.kind == .blank && r.reject.isNone && r.results.get f == .done
  | .rejected, some r => r.kind != .void && r.reject.isSome
  | .sample, some r => r.hold && r.reject.isNone && r.kind != .void
  | .batchEnd, some r => r.batchEnd

/-- The stamp a passing gate applies (Table 5-2). -/
def ChanConfig.stampOnPass (c : ChanConfig) : Option Stamp :=
  match c.gate with
  | .present => c.stamp.map .result
  | .presentAfter _ => c.stamp.map .result
  | .rejected => some (.route .diverted)
  | .sample => some (.route .sampled)
  | .always => none
  | .batchEnd => none

/-- The gating serial of a target cycle (R115). -/
def ChanConfig.gatingSerial (c : ChanConfig) (ct : Word) : Word := ct - BitVec.ofNat 16 c.sp

/-- The pulse that begins at a passing on event (R94). -/
def ChanConfig.firstPulse (c : ChanConfig) (ct : Word) (found : Option Record) : Pulse where
  gating := ⟨c.gatingSerial ct, found.map Record.birth⟩
  stamp := c.stampOnPass
  dots := if c.mode = .dots then c.dotCount - 1 else 0
  timer := c.firstTimer

/-- Does the on event fire rather than skip: S is not below the minimum speed, and the gate passes (R94)? -/
def ChanConfig.fires (c : ChanConfig) (speed : Int) (found : Option Record) : Bool :=
  !(speed < (c.minSpeed : Int)) && c.gate.passes found

/-- Writing a stamp into the record of a serial (R29, R88). -/
def Ttb.stamp (st : Option Stamp) (serial : Word) (t : Ttb) : Ttb :=
  match st with
  | none => t
  | some st => t.write serial (Record.stampWith st)

/-- The on event of channel `k`, armed with `l`, at the count `x` (R94): the pulse begins and stamps, or is skipped and
the channel arms again. -/
def State.onEvent (k : ChanNum) (l : Latch) (x : Count) (s : State) : State :=
  let c := (s.chans.get k).config
  let found := s.ttb.lookup (c.gatingSerial l.ct)
  let due : Option Word := some (l.ct + 1)
  if c.fires s.phu.speed found then
    (s.modChan k fun ch => { ch with due := due, state := .on l (c.firstPulse l.ct found) }).modTable
      (Ttb.stamp c.stampOnPass (c.gatingSerial l.ct))
  else (s.modChan k fun ch => { ch with due := due }).arm k x

/-- The end of a pulse at its own event: the pending configuration is applied and the channel arms (R96). -/
def State.endPulse (k : ChanNum) (l : Latch) (x : Count) (s : State) : State :=
  ((s.applyPending k).modChan k fun ch => { ch with due := some (l.ct + 1) }).arm k x

/-! ## Points reached (R116 to R118) -/

/-- Has the count `x` reached the point the channel waits for? -/
def Channel.atPoint (p : Nat) (x : Count) (ch : Channel) : Bool :=
  match ch.state with
  | .armed l => x.reached p l.aOn
  | .on l _ => l.aOff.any fun a => x.reached p a
  | _ => false

/-- The event of channel `k` at a point the count `x` has reached: the on event of an ARMED channel, the off event of
an ANGLE pulse (R94, R96). -/
def State.pointEvent (x : Count) (s : State) (k : ChanNum) : State :=
  match (s.chans.get k).state with
  | .armed l => s.onEvent k l x
  | .on l _ => s.endPulse k l x
  | _ => s

/-- The channels whose point the count `x` has reached. -/
def State.atPoints (s : State) (x : Count) : List ChanNum :=
  allChans.filter fun k => (s.chans.get k).atPoint s.phu.p x

/-- One free choice has been used. -/
def State.chose (s : State) : State := { s with frees := s.frees + 1 }

/-- The point events of some channels, at one count, in the order of a free choice (log 3). -/
def State.pointEvents (ks : List ChanNum) (x : Count) (s : State) : State :=
  (inTurn (Config.eventTurn s.frees) ks).foldl (State.pointEvent x) s

/-- Every point event at the count `x`; nothing while the count is not presented (R12, R116). -/
def State.runPoints (x : Count) (s : State) : State :=
  if s.phu.presented then (s.pointEvents (s.atPoints x) x).chose else s

/-- The off events a backward count leaves due: it moves an ARMED channel nothing (R116), and ends an ANGLE pulse whose
off point already lies behind it (R118). -/
def State.runOffPoints (x : Count) (s : State) : State :=
  let pulseEnds : ChanNum → Bool := fun k => (s.chans.get k).state.phase == .on && (s.chans.get k).atPoint s.phu.p x
  if s.phu.presented then (allChans.filter pulseEnds).foldl (State.pointEvent x) s else s

/-! ## Pulse cut (R98) -/

/-- Reversing a pulse's stamp on the record it was taken from (R29, R98). -/
def Ttb.unstamp (pulse : Pulse) (t : Ttb) : Ttb :=
  match pulse.stamp with
  | none => t
  | some st => t.writeHeld pulse.gating (Record.unstamp st)

/-- Cutting the pulse of channel `k`, which then takes the state given; a channel without a pulse is left as it is. -/
def State.cutPulse (after : ChanState) (s : State) (k : ChanNum) : State :=
  match (s.chans.get k).state.pulse with
  | none => s
  | some pulse =>
    (((s.modTable (Ttb.unstamp pulse)).raise .channel).modChan k
      fun ch => { ch with state := after, due := none }).applyPending k

/-! ## Inhibition (R90, R91) -/

/-- What the start of inhibition leaves of a channel without a pulse: no due cycle, and no target. -/
def Channel.inhibit (ch : Channel) : Channel :=
  { ch with due := none, state := match ch.state with
      | .armed _ => .waiting
      | other => other }

/-- What a channel keeps through a spell of inhibition that begins: the target it drops, or the one of the pulse that is
cut (R91). -/
def Channel.enterSpell (ch : Channel) : Channel :=
  match ch.state with
  | .armed l => { ch with dropped := some l.ct }
  | .on l _ => { ch with cut := some l.ct }
  | .gap l _ => { ch with cut := some l.ct }
  | _ => ch

/-- Inhibition begins: pulses are cut, in the order of a free choice (R31, log 3), and every enabled channel waits
(R90). -/
def State.beginInhibition (s : State) : State :=
  let cuts := inTurn (Config.eventTurn s.frees) (allChans.filter fun k => (s.chans.get k).state.pulse.isSome)
  let s := { s with chans := s.chans.map Channel.enterSpell }
  let s := (cuts.foldl (State.cutPulse .waiting) s).chose
  { s with chans := s.chans.map Channel.inhibit }

/-- The target of a channel at the end of inhibition, where R92 alone gives `ct` (R91): after the cycle of a pulse cut at the
start of the spell, which is not repeated, and, when the debt is repaid, at or after the target dropped there. That the
earliest such cycle is taken, and when each bound holds, is DEDUCED (log 30). -/
def Channel.targetAfterSpell (repaid : Bool) (ct : Word) (ch : Channel) : Word :=
  let ct := notBefore ct (ch.cut.map (· + 1))
  if repaid then notBefore ct ch.dropped else ct

/-- What the end of inhibition makes of a channel: a WAITING one arms with no due cycle (R91), and nothing is kept of the
spell. -/
def Channel.resume (repaid : Bool) (p : Nat) (speed : Int) (x : Count) (ch : Channel) : Channel :=
  match ch.state with
  | .waiting =>
    let ct := ch.targetAfterSpell repaid (ch.config.latch p speed x).ct
    { ch with due := none, state := .armed (ch.config.latchFor p speed ct), dropped := none, cut := none }
  | _ => { ch with dropped := none, cut := none }

/-- Inhibition ends (R91); `repaid` says that it ends by the last forward crossing of a debt. -/
def State.endInhibition (repaid : Bool) (s : State) : State :=
  { s with chans := s.chans.map (Channel.resume repaid s.phu.p s.phu.speed s.phu.count) }

/-! ## The line changed (R107) -/

/-- A configuration brought within a new P. -/
def ChanConfig.clampTo (p : Nat) (c : ChanConfig) : ChanConfig :=
  { c with onAngle := min c.onAngle (p - 1), offAngle := min c.offAngle (p - 1), leadLimit := min c.leadLimit (p - 1) }

/-- A channel's configurations brought within a new P. -/
def Channel.clampTo (p : Nat) (ch : Channel) : Channel :=
  { ch with config := ch.config.clampTo p, pending := ch.pending.map (ChanConfig.clampTo p) }

end Sys2Proof.Machine
end

