-- ==== Sys2Proof/Machine/Batching.lean ====
section
/-! DEFINITION. Counting at Kc: classification, the size test, closing a batch and opening the next (spec/07, spec/08). -/

namespace Sys2Proof.Machine

/-- The entries the batch queue holds at most (R153). -/
def queueCapacity : Nat := 16

/-- The high-water mark of the queue (R154). -/
def queueHighWater : Nat := 12

/-- The in-stack count (section 7.1). -/
def OpenBatch.inStack (b : OpenBatch) : Nat := b.good + b.passed

/-- Has the batch counted nothing (section 7.1)? -/
def OpenBatch.countedNothing (b : OpenBatch) : Bool :=
  b.good == 0 && b.diverted == 0 && b.passed == 0 && b.sample == 0

/-- Does the queue hold fewer than 16 entries? -/
def Bfu.hasRoom (b : Bfu) : Bool := b.queue.length < queueCapacity

/-- Changing the Batch Forming Unit. -/
def State.modBfu (f : Bfu → Bfu) (s : State) : State := { s with bfu := f s.bfu }

/-- Changing the open batch. -/
def State.modOpen (f : OpenBatch → OpenBatch) (s : State) : State :=
  s.modBfu fun b => { b with openBatch := f b.openBatch }

/-- The size a job gives to a batch opening for it: its staged next size, or else N (R129, R138). -/
def JobSlot.openingSize (j : JobSlot) : Nat := j.next.getD j.size

/-- The slot after a batch has opened for it: the staged size is used up. -/
def JobSlot.used (j : JobSlot) : JobSlot := { j with next := none }

/-- A batch that has counted nothing takes the job of a record of another job (R129). -/
def Bfu.retag (j : JobNum) (b : Bfu) : Bfu :=
  { b with
    openBatch := { b.openBatch with job := j, ne := (b.jobs.get j).openingSize }
    jobs := b.jobs.modify j JobSlot.used }

/-- The batch record of a batch that closes (R137). -/
def OpenBatch.close (b : OpenBatch) (order : BitVec 24) (short forced : Bool) (cycle : Word) : BatchRecord where
  number := b.number
  job := b.job
  order := order
  good := b.good
  diverted := b.diverted
  passed := b.passed
  sample := b.sample
  firstSerial := b.firstSerial
  lastSerial := b.lastSerial
  short := short
  oversize := b.oversize
  mixed := b.mixed
  contaminated := b.contaminated
  forced := forced
  closingCycle := cycle

/-- A slot after one of its batches has closed (R152). -/
def JobSlot.countClosed (j : JobSlot) : JobSlot := { j with closed := saturate (j.closed + 1) }

/-- Does this close make the count of batches closed go up to a nonzero quota (R152)? -/
def JobSlot.meetsQuota (j : JobSlot) : Bool := j.quota != 0 && j.closed < 65535 && j.closed + 1 == j.quota

/-- The close as the unit's own state sees it: append, count, and open the next batch for `next` (R137, R138, R152). -/
def Bfu.close (short forced : Bool) (cycle : Word) (next : JobNum) (b : Bfu) : Bfu :=
  let o := b.openBatch
  let jobs := b.jobs.modify o.job JobSlot.countClosed
  { b with
    queue := b.queue ++ [o.close (b.jobs.get o.job).order short forced cycle]
    openBatch := OpenBatch.fresh (o.number + 1) next (jobs.get next).openingSize
    jobs := jobs.modify next JobSlot.used }

/-- Closing the open batch and opening the next, with the events of the close: BATCH, QHIGH when the append takes the
queue from 11 to 12, JOB when the quota is met (R137, R138, R152, R154). -/
def State.closeBatch (short forced : Bool) (next : JobNum) (s : State) : State :=
  let high := s.bfu.queue.length + 1 == queueHighWater
  let quota := (s.bfu.jobs.get s.bfu.openBatch.job).meetsQuota
  (((s.modBfu (Bfu.close short forced s.phu.cycle next)).raise .batch).raiseIf high .qhigh).raiseIf quota .job

/-- Setting batch end on a record. -/
def Record.markEnd (r : Record) : Record := { r with batchEnd := true }

/-- Placing batch end on the batch's last in-stack record, if it is still held (R139). -/
def State.placeBatchEnd (s : State) : State :=
  match s.bfu.openBatch.lastInStack with
  | none => s
  | some h => s.modTable (Ttb.writeHeld h Record.markEnd)

/-- A close held back raises QFULL once in each full spell (R136). -/
def State.raiseQfull (s : State) : State :=
  if s.bfu.qfull then s else (s.modBfu fun b => { b with qfull := true }).raise .qfull

/-- The job test of a record of job `j` that is not VOID (R129 to R131). -/
def State.jobTest (j : JobNum) (s : State) : State :=
  let o := s.bfu.openBatch
  if o.job = j then s
  else if o.countedNothing then s.modBfu (Bfu.retag j)
  else if s.bfu.hasRoom then s.placeBatchEnd.closeBatch (o.inStack < o.ne) false j
  else (s.modOpen fun o => { o with mixed := true }).raiseQfull

/-- The choice of class (R132). No record is DIVERTED without a reject (DEDUCED, log 11). -/
def classOf (route : Route) (rejected : Bool) : BlankClass :=
  match route, rejected with
  | .sampled, _ => .sample
  | .diverted, _ => .divertedReject
  | .stream, true => .passedReject
  | .stream, false => .good

/-- Is a class in the stack (Table 7-2)? -/
def BlankClass.inStack : BlankClass → Bool
  | .good => true
  | .passedReject => true
  | _ => false

/-- Counting a record of a class into the open batch (R133). -/
def OpenBatch.countIn (b : OpenBatch) (c : BlankClass) (h : Held) : OpenBatch :=
  { b with
    good := if c = .good then saturate (b.good + 1) else b.good
    diverted := if c = .divertedReject then saturate (b.diverted + 1) else b.diverted
    passed := if c = .passedReject then saturate (b.passed + 1) else b.passed
    sample := if c = .sample then saturate (b.sample + 1) else b.sample
    firstSerial := some (b.firstSerial.getD h.serial)
    lastSerial := some h.serial
    lastInStack := if c.inStack then some h else b.lastInStack
    contaminated := b.contaminated || c == .passedReject }

/-- The size test after the record of `serial` has been counted into the stack (R134, R135). -/
def State.sizeTest (serial : Word) (s : State) : State :=
  let o := s.bfu.openBatch
  let large : Bool := o.oversize || decide (o.ne < o.inStack)
  if o.inStack < o.ne && !o.closePending then s
  else if s.bfu.hasRoom then
    ((s.modTable (Ttb.write serial Record.markEnd)).modOpen fun o => { o with oversize := large }).closeBatch
      false false o.job
  else (s.modOpen fun o => { o with oversize := large, closePending := true }).raiseQfull

/-- Counting a record that has passed the job test (R132, R133), and the size test of an in-stack one. -/
def State.countRecord (r : Record) (s : State) : State :=
  let c := classOf r.route r.reject.isSome
  let number := s.bfu.openBatch.number
  let s := s.modTable (Ttb.write r.serial fun r => { r with cls := c, batch := some number })
  let s := s.modOpen fun b => b.countIn c ⟨r.serial, some r.birth⟩
  if c.inStack then s.sizeTest r.serial else s

/-- Classifying the record handed over at Kc (R127). -/
def State.classify (r : Record) (s : State) : State :=
  if r.kind = .void then s.modTable (Ttb.write r.serial fun r => { r with cls := .voidSkip })
  else (s.jobTest r.job).countRecord r

end Sys2Proof.Machine
end

