-- ==== Sys2Proof/Machine/Motion.lean ====
section
/-! DEFINITION. The motion of the line: quadrature counts, crossings, the reverse debt, the advance, index edges, the
speed windows, and timer expiries (spec/01, spec/02 section 2.3, spec/06). -/

namespace Sys2Proof.Machine

/-! ## Quadrature (R1) -/

/-- The next state in the order in which ENC_A leads ENC_B. -/
def Quad.next (q : Quad) : Quad := ⟨!q.b, q.a⟩

/-- The next state in the other order. -/
def Quad.prev (q : Quad) : Quad := ⟨q.b, !q.a⟩

/-- The state in which both channels have changed. -/
def Quad.opposite (q : Quad) : Quad := ⟨!q.a, !q.b⟩

/-- The count that a change from `old` to `new` gives; a change to the opposite state gives none. -/
def Quad.decode (old new : Quad) : Option Dir :=
  if new = old.next then some .forward else if new = old.prev then some .backward else none

/-- The change a count makes of mc's neighbours: `+1` forward, `-1` backward (R10). -/
def Dir.sign : Dir → Int
  | .forward => 1
  | .backward => -1

/-- The levels after a count from `q`; `jumped` says that both channels changed together before it. -/
def Quad.step (q : Quad) (d : Dir) (jumped : Bool) : Quad :=
  let q := if jumped then q.opposite else q
  match d with
  | .forward => q.next
  | .backward => q.prev

/-- What every count does: its direction is the latest, and it feeds the speed window (R1, R3, R10). -/
def Phu.noteCount (d : Dir) (jumped : Bool) (u : Phu) : Phu :=
  { u with lastDir := some d, quad := u.quad.step d jumped, sum := u.sum + d.sign }

/-- Changing the Phase Unit. -/
def State.modPhu (f : Phu → Phu) (s : State) : State := { s with phu := f s.phu }

/-! ## The advance (R23 to R26) -/

/-- Step 2: the record at position L leaves the line (R24). -/
def Record.depart (r : Record) : Record := { r with place := .departed }

/-- The kind FEED and SPLICE give (R26). -/
def kindOfPins (feed splice : Bool) : Kind := if feed then (if splice then .splice else .blank) else .void

/-- The record created at cycle `c` (R26). -/
def Ttb.newRecord (t : Ttb) (c : Word) (job : JobNum) (feed splice : Bool) : Record :=
  let k := kindOfPins feed splice
  let r : Record :=
    { serial := c, birth := t.births, place := .inLine, kind := k, job := job,
      results := ⟨.none, .none, .none, .none, .none, .none⟩, reject := none, further := false, hold := false,
      route := .stream, cls := .uncounted, batch := none, batchEnd := false, note := 0 }
  (r.rejectIf (k == .splice) .splice).rejectIf (t.tracking == .lost && k != .void) .lost

/-- Step 4: the new record replaces what its slot held (R26). -/
def Ttb.create (c : Word) (job : JobNum) (feed splice : Bool) (t : Ttb) : Ttb :=
  { t with
    slots := t.slots.put (slotOf c) (some (t.newRecord c job feed splice))
    births := t.births + 1
    advances := t.advances + 1
    feed := feed
    splice := splice }

/-- Step 3: the record arriving at Kc, if it is IN_LINE, is handed to the Batch Forming Unit (R25). -/
def State.handOff (s : State) : State :=
  match s.ttb.lookup (s.phu.cycle - BitVec.ofNat 16 s.ttb.kc) with
  | none => s
  | some r => if r.inLine then s.classify r else s

/-- The advance event (R23). -/
def State.advance (feed splice : Bool) (s : State) : State :=
  let s := s.modPhu fun u => { u with cycle := u.cycle + 1 }
  let s := s.modTable (Ttb.write (s.phu.cycle - BitVec.ofNat 16 s.ttb.l) Record.depart)
  let s := s.handOff
  s.modTable (Ttb.create s.phu.cycle s.bfu.cutJob feed splice)

/-! ## Crossings (R6 to R9) -/

/-- Every forward crossing adds one to the missing-index counter; SLIP when it goes from 1 to 2 (R6). -/
def State.countMissing (s : State) : State :=
  (s.modPhu fun u => { u with missing := min (u.missing + 1) 2 }).raiseIf (s.phu.missing == 1) .slip

/-- A forward crossing that repays one step of debt; the last step ends inhibition (R8, R91). -/
def State.repay (s : State) : State :=
  let s := s.modPhu fun u => { u with debt := u.debt - 1 }
  if s.phu.debt = 0 then s.endInhibition true else s

/-- A forward crossing after the missing-index counter: it repays debt or is an advance (R8, R9). -/
def State.crossForward (feed splice : Bool) (s : State) : State :=
  if s.phu.debt = 0 then s.advance feed splice else s.repay

/-- A backward crossing (R8): debt, REVERSE and inhibition from 0, LOST and the end of inhibition from 15. -/
def State.crossBackward (s : State) : State :=
  if s.phu.debt = 0 then ((s.modPhu fun u => { u with debt := 1 }).raise .reverse).beginInhibition
  else if s.phu.debt < 15 then s.modPhu fun u => { u with debt := u.debt + 1 }
  else ((s.modPhu fun u => { u with debt := 0 }).enterLost).endInhibition false

/-! ## Counts (R2) -/

/-- The channels among `ks` whose on event, at the count of an advance, a free choice puts before the advance
(R95, log 4). -/
def State.early (s : State) (ks : List ChanNum) : List ChanNum :=
  ks.filter fun k => (s.chans.get k).state.phase == .armed && Config.beforeAdvance s.frees k.val

/-- A forward count that is an advance, with mc already 0: the point events at the new count are taken before the
advance or after it (R95). -/
def State.advanceCount (feed splice : Bool) (s : State) : State :=
  let x : Count := ⟨s.phu.cycle + 1, 0⟩
  let ks := s.atPoints x
  let before := s.early ks
  let after := ks.filter fun k => !before.contains k
  let n := s.frees
  let s := (inTurn (Config.eventTurn n) before).foldl (State.pointEvent x) s
  let s := s.countMissing.advance feed splice
  ((inTurn (Config.eventTurn n) after).foldl (State.pointEvent x) s).chose

/-- A forward count (R2, R7). -/
def State.countForward (jumped feed splice : Bool) (s : State) : State :=
  let s := s.modPhu (Phu.noteCount .forward jumped)
  if s.phu.mc + 1 < s.phu.p then
    let s := s.modPhu fun u => { u with mc := u.mc + 1 }
    s.runPoints s.phu.count
  else
    let s := s.modPhu fun u => { u with mc := 0 }
    if s.phu.phase = .unsynced then s
    else if s.phu.debt = 0 then s.advanceCount feed splice
    else s.countMissing.repay

/-- A backward count (R2, R7). -/
def State.countBackward (jumped : Bool) (s : State) : State :=
  let s := s.modPhu (Phu.noteCount .backward jumped)
  if s.phu.mc = 0 then
    let s := s.modPhu fun u => { u with mc := u.p - 1 }
    if s.phu.phase = .unsynced then s else s.crossBackward
  else
    let s := s.modPhu fun u => { u with mc := u.mc - 1 }
    s.runOffPoints s.phu.count

/-! ## Index edges (R3 to R5) -/

/-- The signed distance of mc from 0 (R5). -/
def Phu.distance (u : Phu) : Int := if 2 * u.mc < u.p then (u.mc : Int) else (u.mc : Int) - u.p

/-- The first forward index edge makes the phase SYNCED, which ends inhibition (R4, R91). -/
def State.synchronise (s : State) : State :=
  let s := (s.modPhu fun u => { u with mc := 0, phase := .synced, missing := 0 }).raise .sync
  if s.phu.debt = 0 then s.endInhibition false else s

/-- A forward index edge while SYNCED (R5). A step of the count forward reaches points once the edge is whole (R117). -/
def State.correct (feed splice : Bool) (s : State) : State :=
  let d := s.phu.distance
  let stepped : Bool := d < 0 && s.phu.debt == 0
  let slipped : Bool := (s.phu.t : Int) < |d|
  let s := s.modPhu fun u => { u with mc := 0 }
  let s := if d < 0 then s.countMissing.crossForward feed splice else s
  let s := if slipped then (s.raise .slip).enterLost else s
  let s := s.modPhu fun u => { u with missing := 0 }
  if stepped then s.runPoints s.phu.count else s

/-- An index edge: one that is backward, or has no direction, is ignored (R3). -/
def State.index (feed splice : Bool) (s : State) : State :=
  if s.phu.lastDir = some .forward then
    match s.phu.phase with
    | .unsynced => s.synchronise
    | .synced => s.correct feed splice
  else s

/-! ## Speed (R10) -/

/-- S is held within 16 signed bits (R10). -/
def clampSpeed (v : Int) : Int := max (-32768) (min 32767 v)

/-- The end of a 1 ms window: S is the sum of the four latest completed windows (R10). -/
def Phu.endWindow (u : Phu) : Phu :=
  let w : Windows := ⟨u.sum, u.windows.newest, u.windows.second, u.windows.third⟩
  { u with sum := 0, windows := w, speed := clampSpeed (w.newest + w.second + w.third + w.oldest) }

/-! ## Timer expiry (R119 to R122) -/

/-- The end of a dot with dots still to begin: the gap starts (R122). -/
def State.startGap (k : ChanNum) (l : Latch) (pulse : Pulse) (s : State) : State :=
  s.modChan k fun ch => { ch with state := .gap l { pulse with timer := some (Timer.start ch.config.gap) } }

/-- The end of a gap: the next dot begins (R122). -/
def State.startDot (k : ChanNum) (l : Latch) (pulse : Pulse) (s : State) : State :=
  s.modChan k fun ch =>
    { ch with state := .on l { pulse with dots := pulse.dots - 1, timer := some (Timer.start ch.config.dot) } }

/-- The expiry of channel `k`'s timer; an idle timer has none (R119, log 8). -/
def State.expire (k : ChanNum) (s : State) : State :=
  match (s.chans.get k).state with
  | .on l pulse =>
    if pulse.timer.isNone then s
    else if pulse.dots = 0 then s.endPulse k l s.phu.count
    else s.startGap k l pulse
  | .gap l pulse => if pulse.timer.isNone then s else s.startDot k l pulse
  | _ => s

/-! ## The meanings -/

/-- FORWARD_COUNT (R2). -/
def execForwardCount (jumped feed splice : Bool) (s : State) : Host.Outcome State Fault Refusal :=
  .next (s.countForward jumped feed splice)

/-- BACKWARD_COUNT (R2). -/
def execBackwardCount (jumped : Bool) (s : State) : Host.Outcome State Fault Refusal :=
  .next (s.countBackward jumped)

/-- INDEX_EDGE (R3 to R5). -/
def execIndexEdge (feed splice : Bool) (s : State) : Host.Outcome State Fault Refusal :=
  .next (s.index feed splice)

/-- SPEED_WINDOW_END (R10); the next window starts at once (log 15). -/
def execSpeedWindowEnd (s : State) : Host.Outcome State Fault Refusal :=
  .next { s with phu := s.phu.endWindow, clock := { s.clock with window := 0 } }

/-- TIMER_EXPIRY (R119). -/
def execTimerExpiry (k : ChanNum) (s : State) : Host.Outcome State Fault Refusal :=
  .next (s.expire k)

end Sys2Proof.Machine
end

