-- ==== Sys2Proof/Machine/Clock.lean ====
section
/-! DEFINITION. One CLK period of 50 ns, which passes when no command waits (spec/01 R10, spec/06 R119, spec/10 R170;
log 2). What falls due in it is put into the queue as the table's own rows. -/

namespace Sys2Proof.Machine

/-- A running timer loses one CLK period. -/
def Timer.tick (t : Timer) : Timer := { t with left := t.left - 1 }

/-- A pulse whose timer, if it runs, loses one CLK period. -/
def Pulse.tick (p : Pulse) : Pulse := { p with timer := p.timer.map Timer.tick }

/-- A channel's timer loses one CLK period. -/
def ChanState.tick : ChanState → ChanState
  | .on l pulse => .on l pulse.tick
  | .gap l pulse => .gap l pulse.tick
  | other => other

/-- One CLK period passes in a channel. -/
def Channel.tick (ch : Channel) : Channel := { ch with state := ch.state.tick }

/-- Does the channel's timer expire at the end of this CLK period? -/
def ChanState.expires (c : ChanState) : Bool := c.timer.any fun t => t.left ≤ 1

/-- The length of INIT in CLK periods: what the implementation takes, at most 250 µs (R170, log 6). -/
def initLength : Nat := min Config.initPeriods Config.initLimit

/-- The rows that fall due in this CLK period. -/
def State.dueRows (s : State) : List Instr :=
  let init : List Instr := if s.bti = .init && initLength ≤ s.clock.init + 1 then [.initEnd] else []
  let timers : List Instr := (allChans.filter fun k => (s.chans.get k).state.expires).map .timerExpiry
  let window : List Instr := if Config.clkPerWindow ≤ s.clock.window + 1 then [.speedWindowEnd] else []
  init ++ match window, timers with
    | [], ts => ts
    | ws, [] => ws
    | ws, ts => if Config.windowFirst s.frees then ws ++ ts else ts ++ ws

/-- One CLK period. -/
def State.tick (s : State) : State :=
  { s with
    chans := s.chans.map Channel.tick
    clock :=
      { window := if Config.clkPerWindow ≤ s.clock.window + 1 then 0 else s.clock.window + 1
        init := if s.bti = .init then s.clock.init + 1 else s.clock.init }
    frees := s.frees + 1
    pending := s.pending ++ s.dueRows }

end Sys2Proof.Machine
end

