-- ==== Sys2Proof/Machine/Resets.lean ====
section
/-! DEFINITION. Power-on reset, the RST pin, and the end of INIT (spec/10 R170). -/

namespace Sys2Proof.Machine

/-- Every block at its reset value, with the pins read at the end of reset. The commands that wait stay in the queue:
they are what the outside world has yet to do (log 19); the count of free choices goes on (log 17). -/
def State.resetPart (pins : ResetPins) (s : State) : State := State.resetWith pins s.frees s.pending

/-- POWER_ON_RESET (R17). -/
def execPowerOnReset (pins : ResetPins) (s : State) : Host.Outcome State Fault Refusal :=
  .next (s.resetPart pins)

/-- RST acts as power-on reset; a transaction in progress is abandoned with the Bus Target Interface's state (R170). -/
def execRst (pins : ResetPins) (s : State) : Host.Outcome State Fault Refusal :=
  .next (s.resetPart pins)

/-- INIT_END: the Bus Target Interface becomes IDLE (R170). -/
def execInitEnd (s : State) : Host.Outcome State Fault Refusal :=
  .next (if s.bti = .init then { s with bti := .idle, clock := { s.clock with init := 0 } } else s)

end Sys2Proof.Machine
end

