-- ==== Sys2Proof/Machine/Bus.lean ====
section
/-! DEFINITION. The Bus Target Interface: addresses, the framing of a write transaction byte by byte, read
transactions, and the rows of the table that the bus alone makes (spec/10 sections 10.1 to 10.3). -/

namespace Sys2Proof.Machine

/-! ## The address block (R169) -/

/-- The base the ADDR[1:0] straps select. -/
def addressBase (addr : BitVec 2) : BitVec 7 :=
  match addr.toNat with
  | 0 => 0x20
  | 1 => 0x28
  | 2 => 0x60
  | _ => 0x68

/-- The port of an address; none outside the block. -/
def portOfAddress (addr : BitVec 2) (address : BitVec 7) : Option PortNum :=
  let base := (addressBase addr).toNat
  if h : base ≤ address.toNat ∧ address.toNat - base < 8 then some ⟨address.toNat - base, h.2⟩ else none

/-! ## A write transaction byte by byte (R171 to R175) -/

/-- Where a known code's operands have brought the interface. -/
def Bti.afterOperands (p : PortNum) (c : Byte) (got : List Byte) : Bti :=
  match progress c got with
  | .more => .operands p c got
  | .done => .complete p c got
  | .badLength => .refusing p c .badLength

/-- One whole byte of a write transaction: the next state, and whether the part acknowledges it (Table 10-1). -/
def Bti.receive (b : Byte) : Bti → Bti × Bool
  | .code p => if knownCode b then (Bti.afterOperands p b [], true) else (.refusing p b .unknownCode, false)
  | .operands p c got =>
    let now := got ++ [b]
    (Bti.afterOperands p c now, progress c now != .badLength)
  | other => (other, false)

/-- The row of the table that the transaction amounts to when it ends at a STOP or repeated START (Table 10-1, R172 to
R175); none: nothing is taken and the buffer stays. -/
def Bti.finish : Bti → Option Instr
  | .complete p c got => commandOf p c got
  | .operands p c _ => some (.short p c)
  | .refusing p c .unknownCode => some (.unknownCmd p c)
  | .refusing p c .badLength => some (.short p c)
  | _ => none

/-- The interface after the bytes of a write transaction whose address was acknowledged on port `p`. -/
def Bti.receiveAll (p : PortNum) (bytes : List Byte) : Bti :=
  bytes.foldl (fun st b => (Bti.receive b st).1) (.code p)

/-! ## A read transaction (R176, R177) -/

/-- The bytes of a response: the three-byte header and the payload (R176). -/
def Response.bytes (r : Response) : List Byte :=
  [r.status.code, r.code, BitVec.ofNat 8 r.payload.length] ++ r.payload

/-- What the part sends for `n` bytes clocked: the buffer from its first byte, then 0xFF (R177). -/
def Response.sent (r : Response) (n : Nat) : List Byte :=
  r.bytes.take n ++ List.replicate (n - r.bytes.length) 0xFF

/-! ## The meanings -/

/-- REFERENCE_CYCLE_LATCH: outside INIT, a write address of the block is acknowledged and latches (R51, R172); another
address is not, and the part waits for the next START (R169). -/
def execReferenceCycleLatch (address : BitVec 7) (s : State) : Host.Outcome State Fault Refusal :=
  .next (
    if s.bti = .init then s
    else match portOfAddress s.straps.addr address with
      | none => { s with bti := .idle }
      | some p => { s.latchReference p with bti := .code p })

/-- READ_TRANSACTION: outside INIT, a read address of the block is acknowledged and the buffer is sent; nothing but the
bus changes (R162, R177). -/
def execReadTransaction (address : BitVec 7) (clocked : Nat) (s : State) : Host.Outcome State Fault Refusal :=
  .next (
    if s.bti = .init then s
    else match portOfAddress s.straps.addr address with
      | none => { s with bti := .idle }
      | some p => { s with bti := .idle, sda := (s.ports.get p).response.sent clocked })

/-- UNKNOWN_CMD: the buffer is replaced, the code echoed, nothing taken (R172; any code, log 20). -/
def execUnknownCmd (p : PortNum) (code : Byte) (s : State) : Host.Outcome State Fault Refusal :=
  transact p (State.answer p .unknownCmd code []) s

/-- SHORT: the buffer is replaced, the code echoed, nothing taken (R174, R175; any code, log 20). -/
def execShort (p : PortNum) (code : Byte) (s : State) : Host.Outcome State Fault Refusal :=
  transact p (State.answer p .short code []) s

end Sys2Proof.Machine
end

