-- ==== Sys2Proof/Machine/Wire.lean ====
section
/-! DEFINITION. The byte layouts of payloads (spec/10 sections 10.4 to 10.8). -/

namespace Sys2Proof.Machine

/-- A number as one byte. -/
def byteOf (n : Nat) : Byte := BitVec.ofNat 8 n

/-- A number as two bytes, most significant first (R178). -/
def natBytes16 (n : Nat) : List Byte := bytes16 (BitVec.ofNat 16 n)

/-- A number as four bytes, most significant first (R178). -/
def natBytes32 (n : Nat) : List Byte := bytes32 (BitVec.ofNat 32 n)

/-- A serial that may be absent; an absent one reads 0 (R181). -/
def serialBytes (x : Option Word) : List Byte := bytes16 (x.getD 0)

/-! ## The record (R180, Table 10-5) -/

/-- State codes of a record. -/
def Place.code : Place → Byte
  | .inLine => 1
  | .departed => 2

/-- Kind codes. -/
def Kind.code : Kind → Byte
  | .blank => 0
  | .void => 1
  | .splice => 2

/-- Class codes. -/
def BlankClass.code : BlankClass → Byte
  | .uncounted => 0
  | .good => 1
  | .divertedReject => 2
  | .passedReject => 3
  | .sample => 4
  | .voidSkip => 5

/-- Result codes, two bits each. -/
def Result.code : Result → Word
  | .none => 0
  | .done => 1
  | .fault => 2

/-- The six results in bits 11..0. -/
def Results.word (x : Results) : Word :=
  x.cut.code ||| (x.win.code <<< 2) ||| (x.patch.code <<< 4) ||| (x.gum.code <<< 6) ||| (x.fold.code <<< 8)
    ||| (x.inspect.code <<< 10)

/-- Reason codes. -/
def Reject.code : Reject → Byte
  | .splice => 1
  | .fault .cut => 2
  | .fault .win => 3
  | .fault .patch => 4
  | .fault .gum => 5
  | .fault .fold => 6
  | .fault .inspect => 7
  | .port _ _ => 8
  | .lost => 9
  | .range => 10

/-- The detail byte: the port number and station code of reason PORT, else 0 (R32). -/
def Reject.detail : Reject → Byte
  | .port p c => (byteOf p.val <<< 4) ||| byteOf c.val
  | _ => 0

/-- Route codes. -/
def Route.code : Route → Byte
  | .stream => 0
  | .diverted => 1
  | .sampled => 2

/-- The twelve bytes of a record. -/
def Record.bytes (r : Record) : List Byte :=
  bytes16 r.serial
    ++ [(r.place.code <<< 4) ||| r.kind.code, (byteOf r.job.val <<< 4) ||| r.cls.code]
    ++ bytes16 r.results.word
    ++ [flagBit r.further 7 ||| (match r.reject with | none => 0 | some x => x.code),
        (match r.reject with | none => 0 | some x => x.detail),
        r.route.code ||| flagBit r.hold 4 ||| flagBit r.batchEnd 5,
        r.note]
    ++ serialBytes r.batch

/-- An entry of READ_WINDOW: the record, or twelve bytes of 0 for UNKNOWN (R180). -/
def entryRecordBytes : Option Record → List Byte
  | none => List.replicate 12 0
  | some r => r.bytes

/-! ## Batches and jobs (R181) -/

/-- The in-stack count as it is sent (R181; in READ_OPEN DEDUCED, log 14). -/
def inStackBytes (good passed : Nat) : List Byte := natBytes16 (saturate (good + passed))

/-- The 24 bytes of a batch record (Table 10-6). -/
def BatchRecord.bytes (b : BatchRecord) : List Byte :=
  bytes16 b.number
    ++ [byteOf b.job.val,
        flagBit b.short 0 ||| flagBit b.oversize 1 ||| flagBit b.mixed 2 ||| flagBit b.contaminated 3
          ||| flagBit b.forced 4,
        0]
    ++ bytes24 b.order
    ++ natBytes16 b.good ++ natBytes16 b.diverted ++ natBytes16 b.passed ++ natBytes16 b.sample
    ++ inStackBytes b.good b.passed
    ++ serialBytes b.firstSerial ++ serialBytes b.lastSerial ++ bytes16 b.closingCycle

/-- The 22 bytes of the open batch. -/
def OpenBatch.bytes (b : OpenBatch) : List Byte :=
  bytes16 b.number ++ [byteOf b.job.val] ++ natBytes16 b.ne
    ++ natBytes16 b.good ++ natBytes16 b.diverted ++ natBytes16 b.passed ++ natBytes16 b.sample
    ++ inStackBytes b.good b.passed
    ++ serialBytes b.firstSerial ++ serialBytes b.lastSerial ++ serialBytes (b.lastInStack.map Held.serial)
    ++ [flagBit b.firstSerial.isSome 0 ||| flagBit b.lastInStack.isSome 1 ||| flagBit b.oversize 2
          ||| flagBit b.mixed 3 ||| flagBit b.contaminated 4 ||| flagBit b.closePending 5]

/-- The 14 bytes of a job slot. -/
def JobSlot.bytes (slot : JobNum) (isCut inUse : Bool) (j : JobSlot) : List Byte :=
  [byteOf slot.val,
   flagBit j.defined 0 ||| flagBit j.next.isSome 1 ||| flagBit isCut 2 ||| flagBit inUse 3,
   0]
    ++ bytes24 j.order ++ natBytes16 j.size ++ natBytes16 (j.next.getD 0) ++ natBytes16 j.quota
    ++ natBytes16 j.closed

/-! ## Phase record and snapshot (R182) -/

/-- The 11 bytes of the phase record. -/
def phaseBytes (u : Phu) (tr : Tracking) : List Byte :=
  bytes16 u.cycle ++ natBytes16 u.mc ++ bytes16 (BitVec.ofInt 16 u.speed)
    ++ [byteOf u.debt, phaseTrackingByte u.phase tr] ++ natBytes16 u.p
    ++ [byteOf u.t ||| (byteOf u.missing <<< 6)]

/-- The seven bytes of one channel in a snapshot. -/
def ChanView.bytes (v : ChanView) : List Byte := [v.phase.code] ++ bytes16 v.target ++ natBytes32 v.elapsed

/-- The 120 bytes of a snapshot. -/
def Snapshot.bytes (x : Snapshot) : List Byte :=
  bytes16 x.cycle ++ natBytes16 x.mc ++ bytes16 (BitVec.ofInt 16 x.speed)
    ++ [byteOf x.debt, phaseTrackingByte x.phase x.tracking]
    ++ x.chans.toList.flatMap ChanView.bytes

/-! ## Ports (Table 10-2) -/

/-- The privileges byte. -/
def Privileges.byte (x : Privileges) : Byte := flagBit x.setup 0 ||| flagBit x.batch 1

/-- The access bits. -/
def Access.code : Access → Byte
  | .none => 0
  | .read => 1
  | .readWrite => 2

/-- The direction and access byte. -/
def Window.dirAccessByte (w : Window) : Byte := w.access.code ||| flagBit (w.direction == .down) 2

/-- The payload of READ_PORT. -/
def Port.bytes (p : PortNum) (q : Port) : List Byte :=
  [byteOf p.val, q.privileges.byte, byteOf q.window.base, byteOf q.window.length, q.window.dirAccessByte]
    ++ bytes16 (q.mask.setWidth 16) ++ [flagBit q.fault.isFrozen 0]

/-- The payload of READ_FAULT; absent parts read 0 (R178), all of a CLEAR record among them (DEDUCED, log 24). -/
def FaultState.bytes (p : PortNum) : FaultState → List Byte
  | .clear => byteOf p.val :: List.replicate 11 0
  | .frozen more f =>
    [byteOf p.val, 1 ||| flagBit more 1, f.kind.code, f.code,
     flagBit f.index.isSome 0 ||| flagBit f.position.isSome 1 ||| flagBit f.serial.isSome 2,
     byteOf (f.index.getD 0)]
      ++ natBytes16 (f.position.getD 0) ++ serialBytes f.serial ++ bytes16 f.reference

/-! ## Channels (Table 10-2, R178) -/

/-- Gate codes. -/
def Gate.code : Gate → Byte
  | .always => 0
  | .present => 1
  | .presentAfter _ => 2
  | .rejected => 3
  | .sample => 4
  | .batchEnd => 5

/-- The field a PRESENT_AFTER gate carries. -/
def Gate.field : Gate → Option ResultField
  | .presentAfter f => some f
  | _ => none

/-- Mode codes. -/
def PulseMode.code : PulseMode → Byte
  | .angle => 0
  | .time => 1
  | .timeLong => 2
  | .dots => 3

/-- The 28 bytes of a configuration; `unread` stands in the gate-field byte of a gate that has no field (R179,
log 7). -/
def ChanConfig.bytes (unread : ResultField) (c : ChanConfig) : List Byte :=
  [byteOf c.sp, c.gate.code, byteOf (c.gate.field.getD unread).code,
   (match c.stamp with | none => 0xFF | some f => byteOf f.code)]
    ++ natBytes16 c.onAngle ++ natBytes16 c.offAngle ++ [c.mode.code] ++ natBytes16 c.duration
    ++ natBytes32 c.longDuration ++ [byteOf c.dotCount] ++ natBytes16 c.dot ++ natBytes16 c.gap
    ++ natBytes16 c.latencyOn ++ natBytes16 c.latencyOff ++ natBytes16 c.leadLimit ++ natBytes16 c.minSpeed

/-- The target cycle as it is read: 0 where none is held (R106). -/
def ChanState.target (c : ChanState) : Word :=
  match c.latch with
  | none => 0
  | some l => l.ct

/-- Leads and points as they are read: 0 where none are latched (R178). -/
def ChanState.latchBytes (c : ChanState) : List Byte :=
  match c.latch with
  | none => List.replicate 12 0
  | some l => natBytes16 l.onLead ++ natBytes16 l.offLead ++ natBytes32 l.aOn ++ natBytes32 (l.aOff.getD 0)

/-- The gating serial as it is read: 0 outside ON and GAP (R178). -/
def ChanState.gatingBytes (c : ChanState) : List Byte :=
  match c.pulse with
  | none => [0, 0]
  | some pulse => bytes16 pulse.gating.serial

/-- The payload of READ_CHANNEL. -/
def Channel.bytes (k : ChanNum) (unread unreadPending : ResultField) (ch : Channel) : List Byte :=
  [byteOf k.val, ch.state.phase.code, flagBit ch.pending.isSome 0] ++ ch.config.bytes unread
    ++ (match ch.pending with | none => List.replicate 28 0 | some c => c.bytes unreadPending)
    ++ bytes16 ch.state.target ++ ch.state.latchBytes ++ ch.state.gatingBytes ++ natBytes32 ch.state.elapsed
    ++ natBytes16 ch.overruns

/-! ## Sets -/

/-- An event set as two bytes. -/
def eventBytes (x : EventSet) : List Byte := bytes16 (x.setWidth 16)

/-- A set of record fields as two bytes. -/
def fieldSetBytes (x : BitVec 10) : List Byte := bytes16 (x.setWidth 16)

end Sys2Proof.Machine
end

