-- ==== Sys2Proof/Machine/PhaseCommands.lean ====
section
/-! DEFINITION. READ_PHASE, CAPTURE and READ_SNAPSHOT (spec/01 section 1.8). -/

namespace Sys2Proof.Machine

/-- READ_PHASE (R14). -/
def execReadPhase (p : PortNum) (s : State) : Host.Outcome State Fault Refusal :=
  transact p (fun s => s.answer p .ok Code.readPhase (phaseBytes s.phu s.ttb.tracking)) s

/-- What a snapshot holds of a channel (R15). -/
def Channel.view (ch : Channel) : ChanView := ⟨ch.state.phase, ch.state.target, ch.state.elapsed⟩

/-- The phase and the sixteen channels at one instant (R15). -/
def State.snapshot (s : State) : Snapshot where
  cycle := s.phu.cycle
  mc := s.phu.mc
  speed := s.phu.speed
  debt := s.phu.debt
  phase := s.phu.phase
  tracking := s.ttb.tracking
  chans := s.chans.map Channel.view

/-- Storing a port's snapshot. -/
def State.setSnapshot (p : PortNum) (x : Option Snapshot) (s : State) : State :=
  s.modPhu fun u => { u with snapshots := u.snapshots.put p x }

/-- CAPTURE (R15). -/
def execCapture (p : PortNum) (s : State) : Host.Outcome State Fault Refusal :=
  transact p (fun s => (s.setSnapshot p (some s.snapshot)).answer p .ok Code.capture []) s

/-- READ_SNAPSHOT: NONE while the port's snapshot is empty (R16). -/
def execReadSnapshot (p : PortNum) (s : State) : Host.Outcome State Fault Refusal :=
  transact p (fun s =>
    match s.phu.snapshots.get p with
    | none => s.answer p .nothing Code.readSnapshot []
    | some x => s.answer p .ok Code.readSnapshot x.bytes) s

end Sys2Proof.Machine
end

