-- ==== Sys2Proof/Machine/Line.lean ====
section
/-! DEFINITION. The line commands: PURGE, REJECT_RANGE, RESYNC, SET_LINE, READ_LINE (spec/02 sections 2.8, 2.9). -/

namespace Sys2Proof.Machine

/-- The records PURGE reaches: IN_LINE at a position below Kc (R40). -/
def State.purges (s : State) (r : Record) : Bool := r.inLine && r.position s.phu.cycle < s.ttb.kc

/-- PURGE: the records it reaches become VOID; it answers how many were BLANK or SPLICE (R40). -/
def State.purge (p : PortNum) (s : State) : State :=
  let n := s.ttb.countRecords fun r => s.purges r && r.kind != .void
  (s.modTable (Ttb.mapRecords fun r => if s.purges r then { r with kind := .void } else r)).answer p .ok Code.purge
    [byteOf n]

/-- PURGE (R39, R40). -/
def execPurge (p : PortNum) (s : State) : Host.Outcome State Fault Refusal :=
  transact p (fun s => s.privileged p Code.purge (s.hasSetup p) (State.purge p)) s

/-- The records REJECT_RANGE reaches, its positions clamped to L−1 (R41). -/
def State.inRange (a b : Nat) (s : State) (r : Record) : Bool :=
  let pos := r.position s.phu.cycle
  r.untrusted && min a (s.ttb.l - 1) ≤ pos && pos ≤ min b (s.ttb.l - 1)

/-- REJECT_RANGE: the records it reaches are rejected with RANGE; it answers how many (R41). -/
def State.rejectRange (p : PortNum) (a b : Nat) (s : State) : State :=
  if b < a then s.answer p .range Code.rejectRange []
  else
    let n := s.ttb.countRecords (s.inRange a b)
    (s.modTable (Ttb.mapRecords fun r => r.rejectIf (s.inRange a b r) .range)).answer p .ok Code.rejectRange [byteOf n]

/-- REJECT_RANGE (R39, R41). -/
def execRejectRange (p : PortNum) (a b : Byte) (s : State) : Host.Outcome State Fault Refusal :=
  transact p (fun s => s.privileged p Code.rejectRange (s.hasSetup p) (State.rejectRange p a.toNat b.toNat)) s

/-- RESYNC (R38). -/
def execResync (p : PortNum) (s : State) : Host.Outcome State Fault Refusal :=
  transact p (fun s => s.privileged p Code.resync (s.hasSetup p) fun s =>
    (s.modTable fun t => { t with tracking := .ready }).answer p .ok Code.resync []) s

/-- Does every configuration of the channel, applied and pending, stand at a position below `l` (R42, R107;
DEDUCED, log 28)? -/
def Channel.fits (l : Nat) (ch : Channel) : Bool := ch.config.sp < l && ch.pending.all fun c => c.sp < l

/-- The operand checks of SET_LINE (R42, check 1). -/
def State.lineOperandsOk (l kc counts : Nat) (s : State) : Bool :=
  2 ≤ l && l ≤ 48 && 1 ≤ kc && kc ≤ l - 1 && 256 ≤ counts && counts ≤ 16384 && s.chans.all (Channel.fits l)

/-- Is the line stopped with no uncounted blank (R42, check 2)? -/
def State.lineIdle (s : State) : Bool := s.phu.speed == 0 && s.ttb.countRecords Record.uncountedBlank == 0

/-- The table emptied for a new L and Kc (R43). -/
def Ttb.setLine (l kc : Nat) (t : Ttb) : Ttb :=
  { t with l := l, kc := kc, slots := Bank.fill 64 none, advances := 0 }

/-- The highest index tolerance (R13). -/
def toleranceLimit : Nat := 63

/-- A changed P: stored, with the phase UNSYNCED (R13). -/
def Phu.setCounts (counts : Nat) (u : Phu) : Phu :=
  { u with p := counts, mc := 0, phase := .unsynced, debt := 0, missing := 0 }

/-- What a taken SET_LINE does to the table, the Phase Unit and the channels (R13, R43, R107; that inhibition starts
whatever stood before is DEDUCED, log 26). -/
def State.takeLine (l kc counts t : Nat) (s : State) : State :=
  let s := (s.modTable (Ttb.setLine l kc)).modPhu fun u => { u with t := min t toleranceLimit }
  if counts = s.phu.p then s
  else
    let s := (s.modPhu (Phu.setCounts counts)).beginInhibition
    { s with chans := s.chans.map (Channel.clampTo counts) }

/-- SET_LINE after the privilege check (R42, R43). -/
def State.setLine (p : PortNum) (l kc counts t : Nat) (s : State) : State :=
  if !s.lineOperandsOk l kc counts then s.answer p .range Code.setLine []
  else if !s.lineIdle then s.answer p .busy Code.setLine []
  else (s.takeLine l kc counts t).answer p .ok Code.setLine []

/-- SET_LINE (R39, R42, R43). -/
def execSetLine (p : PortNum) (l kc : Byte) (counts : Word) (t : Byte) (s : State) :
    Host.Outcome State Fault Refusal :=
  transact p (fun s => s.privileged p Code.setLine (s.hasSetup p)
    (State.setLine p l.toNat kc.toNat counts.toNat t.toNat)) s

/-- READ_LINE (R44). -/
def execReadLine (p : PortNum) (s : State) : Host.Outcome State Fault Refusal :=
  transact p (fun s => s.answer p .ok Code.readLine
    ([byteOf s.ttb.l, byteOf s.ttb.kc, s.ttb.tracking.code] ++ bytes16 s.phu.cycle
      ++ [byteOf (s.ttb.countRecords Record.inLine)])) s

end Sys2Proof.Machine
end

