-- ==== Sys2Proof/Machine/Records.lean ====
section
/-! DEFINITION. The five record access commands (spec/03 sections 3.4 to 3.6, spec/04). -/

namespace Sys2Proof.Machine

/-! ## Reading -/

/-- The serial resolved and the cycle number at take: the payload of UNKNOWN, of RANGE and of a write's LATE (R176). -/
def State.serialPayload (s : State) (serial : Word) : List Byte := bytes16 serial ++ bytes16 s.phu.cycle

/-- The payload of a read that finds its record (R75). -/
def State.recordPayload (s : State) (p : PortNum) (r : Record) : List Byte :=
  bytes16 s.phu.cycle ++ bytes16 (s.ports.get p).reference ++ r.bytes

/-- The status of a read that finds its record: LATE for a DEPARTED one (R73, R76). -/
def Record.readStatus (r : Record) : Status := if r.inLine then .ok else .late

/-- A read after its address has met the checks (R73). -/
def State.readReached (p : PortNum) (code : Byte) (reach : Reach) (s : State) : State :=
  match reach with
  | .frozen => s.answer p .frozen code []
  | .fault f => s.fault p f
  | .serial serial =>
    match s.ttb.lookup serial with
    | none => s.answer p .unknown code (s.serialPayload serial)
    | some r => s.answer p r.readStatus code (s.recordPayload p r)

/-- READ_REC (R73). -/
def execReadRec (p : PortNum) (index : Byte) (s : State) : Host.Outcome State Fault Refusal :=
  transact p (fun s =>
    s.readReached p Code.readRec ((s.ports.get p).reachIndex s.ttb.l false Code.readRec index.toNat)) s

/-- READ_REC_SER (R74). -/
def execReadRecSer (p : PortNum) (serial : Word) (s : State) : Host.Outcome State Fault Refusal :=
  transact p (fun s =>
    s.readReached p Code.readRecSer ((s.ports.get p).reachSerial s.ttb.l false Code.readRecSer serial)) s

/-- The record READ_WINDOW finds at local index `i`; none is an entry marked UNKNOWN (R77). -/
def State.windowEntry (s : State) (p : PortNum) (i : Nat) : Option Record :=
  let q := s.ports.get p
  match q.window.positionOf i with
  | none => none
  | some pos => if pos < s.ttb.l then s.ttb.lookup (q.serialAt pos) else none

/-- The payload of READ_WINDOW (R78). -/
def State.windowPayload (s : State) (p : PortNum) : List Byte :=
  let q := s.ports.get p
  bytes16 s.phu.cycle ++ bytes16 q.reference ++ [byteOf q.window.length]
    ++ (List.range q.window.length).flatMap fun i => entryRecordBytes (s.windowEntry p i)

/-- READ_WINDOW: the access check is made once for the whole window (R77, R78). -/
def execReadWindow (p : PortNum) (s : State) : Host.Outcome State Fault Refusal :=
  transact p (fun s =>
    let q := s.ports.get p
    if q.window.access.allows false then s.answer p .ok Code.readWindow (s.windowPayload p)
    else s.fault p ⟨.access, Code.readWindow, none, none, none, q.reference⟩) s

/-! ## Writing -/

/-- Applying an entry that is in the mask by its field's own rule: the record after, and whether it was taken (R34,
R32, R30, R35). -/
def Entry.apply (p : PortNum) (tracking : Tracking) (belowKc : Bool) (e : Entry) (r : Record) : Record × Bool :=
  match e with
  | .kind k => if belowKc then (r.writeKind tracking k, true) else (r, false)
  | .reject code => (r.rejectWith (.port p code), true)
  | .result f v => (r.mergeResult f v, (r.results.get f).takes v)
  | .hold b => ({ r with hold := b }, true)
  | .note v => ({ r with note := v }, true)

/-- What a write has done so far: the record, the fields ignored for the mask, the fields ignored by their rule (R82). -/
structure Written where
  record : Record
  maskIgnored : BitVec 10
  ruleIgnored : BitVec 10
  deriving DecidableEq, Repr

/-- One entry of a write (R60). -/
def Written.step (p : PortNum) (mask : BitVec 10) (tracking : Tracking) (belowKc : Bool) (w : Written) (e : Entry) :
    Written :=
  let bit : BitVec 10 := 1#10 <<< e.field.val
  if mask.getLsbD e.field.val then
    let (r, taken) := e.apply p tracking belowKc w.record
    { w with record := r, ruleIgnored := if taken then w.ruleIgnored else w.ruleIgnored ||| bit }
  else { w with maskIgnored := w.maskIgnored ||| bit }

/-- The ten fields in the order a write deals with them: KIND, REJECT, the results, HOLD, NOTE (R60). -/
def fieldOrder : List (Fin 10) := [0, 1, 2, 3, 4, 5, 6, 7, 8, 9]

/-- The entries of a list in the order in which a write deals with them (R60). -/
def inFieldOrder (es : List Entry) : List Entry := fieldOrder.flatMap fun f => es.filter fun e => e.field == f

/-- Applying a well-formed field list to a record (R60). -/
def writeFields (p : PortNum) (mask : BitVec 10) (tracking : Tracking) (belowKc : Bool) (es : List Entry) (r : Record) :
    Written :=
  (inFieldOrder es).foldl (Written.step p mask tracking belowKc) ⟨r, 0, 0⟩

/-- The status of an applied write: MASKED when a field was ignored (R82). -/
def Written.status (w : Written) : Status := if w.maskIgnored = 0 ∧ w.ruleIgnored = 0 then .ok else .masked

/-- Applying a field list to the IN_LINE record `r` of a serial (R81, R82). -/
def State.writeFound (p : PortNum) (code : Byte) (serial : Word) (r : Record) (entries : List RawEntry) (s : State) :
    State :=
  match namedEntries entries with
  | none => s.answer p .range code (s.serialPayload serial)
  | some es =>
    let w := writeFields p (s.ports.get p).mask s.ttb.tracking (r.position s.phu.cycle < s.ttb.kc) es r
    (s.modTable (Ttb.write serial fun _ => w.record)).answer p w.status code
      (s.serialPayload serial ++ fieldSetBytes w.maskIgnored ++ fieldSetBytes w.ruleIgnored)

/-- A write after its address has met the checks (R79, R80). -/
def State.writeReached (p : PortNum) (code : Byte) (reach : Reach) (entries : List RawEntry) (s : State) : State :=
  match reach with
  | .frozen => s.answer p .frozen code []
  | .fault f => s.fault p f
  | .serial serial =>
    match s.ttb.lookup serial with
    | none => s.answer p .unknown code (s.serialPayload serial)
    | some r =>
      if r.inLine then s.writeFound p code serial r entries else s.answer p .late code (s.serialPayload serial)

/-- WRITE_REC (R79); a field list of more than 10 entries never completes (R174; DEDUCED, log 21). -/
def execWriteRec (p : PortNum) (index : Byte) (entries : List RawEntry) (s : State) :
    Host.Outcome State Fault Refusal :=
  transact p (fun s =>
    if maxEntries < entries.length then s.answer p .short Code.writeRec []
    else s.writeReached p Code.writeRec ((s.ports.get p).reachIndex s.ttb.l true Code.writeRec index.toNat) entries) s

/-- WRITE_REC_SER (R79); a field list of more than 10 entries never completes (R174; DEDUCED, log 21). -/
def execWriteRecSer (p : PortNum) (serial : Word) (entries : List RawEntry) (s : State) :
    Host.Outcome State Fault Refusal :=
  transact p (fun s =>
    if maxEntries < entries.length then s.answer p .short Code.writeRecSer []
    else s.writeReached p Code.writeRecSer ((s.ports.get p).reachSerial s.ttb.l true Code.writeRecSer serial)
      entries) s

end Sys2Proof.Machine
end

