-- ==== Sys2Proof/Machine/PortCommands.lean ====
section
/-! DEFINITION. SET_PORT, READ_PORT, READ_FAULT, CLEAR_FAULT and PORT_RESET (spec/03 sections 3.7 to 3.9). -/

namespace Sys2Proof.Machine

/-- SET_PORT after the privilege check (R67). -/
def State.setPort (p : PortNum) (target privileges base length dirAccess : Byte) (mask : Word) (s : State) : State :=
  match namedPort target, namedPrivileges privileges, namedWindow base length dirAccess, namedMask mask with
  | some t, some pr, some w, some m =>
    (s.modPort t fun q => { q with privileges := pr, window := w, mask := m }).answer p .ok Code.setPort []
  | _, _, _, _ => s.answer p .range Code.setPort []

/-- SET_PORT (R67). -/
def execSetPort (p : PortNum) (target privileges base length dirAccess : Byte) (mask : Word) (s : State) :
    Host.Outcome State Fault Refusal :=
  transact p (fun s => s.privileged p Code.setPort (s.hasSetup p)
    (State.setPort p target privileges base length dirAccess mask)) s

/-- READ_PORT (R69). -/
def execReadPort (p : PortNum) (target : Byte) (s : State) : Host.Outcome State Fault Refusal :=
  transact p (fun s =>
    match namedPort target with
    | none => s.answer p .range Code.readPort []
    | some t => s.answer p .ok Code.readPort ((s.ports.get t).bytes t)) s

/-- READ_FAULT (R65). -/
def execReadFault (p : PortNum) (target : Byte) (s : State) : Host.Outcome State Fault Refusal :=
  transact p (fun s =>
    match namedPort target with
    | none => s.answer p .range Code.readFault []
    | some t => s.answer p .ok Code.readFault ((s.ports.get t).fault.bytes t)) s

/-- CLEAR_FAULT (R64). -/
def execClearFault (p : PortNum) (s : State) : Host.Outcome State Fault Refusal :=
  transact p (fun s => (s.modPort p fun q => { q with fault := .clear }).answer p .ok Code.clearFault []) s

/-- A port returned to its starting condition (R70, R18, R168). -/
def State.resetPort (t : PortNum) (s : State) : State :=
  let s := s.modPort t fun q => { q with response := Response.initial, fault := .clear }
  { s.setSnapshot t none with events := s.events.put t ⟨0, 0⟩ }

/-- PORT_RESET after the privilege check: a port that resets itself finds NONE in its buffer (R70). -/
def State.portReset (p : PortNum) (target : Byte) (s : State) : State :=
  match namedPort target with
  | none => s.answer p .range Code.portReset []
  | some t => if t = p then s.resetPort t else (s.resetPort t).answer p .ok Code.portReset []

/-- PORT_RESET: naming the issuing port needs no privilege, naming any other, a number above 7 too, needs SETUP
(R48, R70; DEDUCED, log 23). -/
def execPortReset (p : PortNum) (target : Byte) (s : State) : Host.Outcome State Fault Refusal :=
  transact p (fun s => s.privileged p Code.portReset (namedPort target == some p || s.hasSetup p)
    (State.portReset p target)) s

end Sys2Proof.Machine
end

