-- ==== Sys2Proof/Machine/Channels.lean ====
section
/-! DEFINITION. SET_CHANNEL, ENABLE_CHANNEL, DISABLE_CHANNEL and READ_CHANNEL (spec/05 sections 5.9 to 5.11). -/

namespace Sys2Proof.Machine

/-- May channel `k` store this configuration: a TIME_LONG one needs the odd partner DISABLED or CLAIMED, and a CLAIMED
channel stores none (R102)? -/
def State.pairAllows (k : ChanNum) (c : ChanConfig) (s : State) : Bool :=
  let partner := (s.chans.get (partnerOf k)).state
  (s.chans.get k).state != .claimed && (c.mode != .timeLong || partner == .disabled || partner == .claimed)

/-- Storing a configuration by the channel's state (R99); the pair follows in the same event (R102). -/
def State.storeConfig (k : ChanNum) (c : ChanConfig) (s : State) : State :=
  match (s.chans.get k).state with
  | .on _ _ => (s.modChan k fun ch => { ch with pending := some c }).settlePair k
  | .gap _ _ => (s.modChan k fun ch => { ch with pending := some c }).settlePair k
  | .armed l =>
    (((s.modChan k fun ch => { ch with config := c, pending := none, due := some l.ct }).settlePair k).arm k
      s.phu.count)
  | _ => (s.modChan k fun ch => { ch with config := c, pending := none }).settlePair k

/-- Is a configuration held pending rather than applied at once (R99)? -/
def ChanState.holdsBack (c : ChanState) : Bool := c.pulse.isSome

/-- SET_CHANNEL after the privilege check (R99, R102, R103). -/
def State.setChannel (p : PortNum) (channel : Byte) (raw : RawConfig) (s : State) : State :=
  match namedChan channel with
  | none => s.answer p .range Code.setChannel []
  | some k =>
    match namedConfig s.ttb.l s.phu.p (!isEven k) raw with
    | none => s.answer p .range Code.setChannel []
    | some c =>
      if s.pairAllows k c then
        (s.storeConfig k c).answer p .ok Code.setChannel [flagBit (s.chans.get k).state.holdsBack 0]
      else s.answer p .busy Code.setChannel []

/-- SET_CHANNEL (R99, R103). -/
def execSetChannel (p : PortNum) (channel : Byte) (raw : RawConfig) (s : State) : Host.Outcome State Fault Refusal :=
  transact p (fun s => s.privileged p Code.setChannel (s.hasSetup p) (State.setChannel p channel raw)) s

/-- Enabling a DISABLED channel: it arms with no due cycle, or waits while inhibited (R104). -/
def State.enable (k : ChanNum) (s : State) : State :=
  if s.phu.presented then (s.modChan k fun ch => { ch with due := none }).arm k s.phu.count
  else s.modChan k fun ch => { ch with due := none, state := .waiting }

/-- ENABLE_CHANNEL after the privilege check (R104). -/
def State.enableChannel (p : PortNum) (channel : Byte) (s : State) : State :=
  match namedChan channel with
  | none => s.answer p .range Code.enableChannel []
  | some k =>
    match (s.chans.get k).state with
    | .claimed => s.answer p .busy Code.enableChannel []
    | .disabled =>
      let s := s.enable k
      s.answer p .ok Code.enableChannel [(s.chans.get k).state.phase.code]
    | other => s.answer p .ok Code.enableChannel [other.phase.code]

/-- ENABLE_CHANNEL (R104). -/
def execEnableChannel (p : PortNum) (channel : Byte) (s : State) : Host.Outcome State Fault Refusal :=
  transact p (fun s => s.privileged p Code.enableChannel (s.hasSetup p) (State.enableChannel p channel)) s

/-- Disabling a channel: a pulse is cut and the pending configuration applied (R105). -/
def State.disable (k : ChanNum) (s : State) : State :=
  match (s.chans.get k).state with
  | .disabled => s
  | .claimed => s
  | .waiting => s.modChan k fun ch => { ch with state := .disabled, due := none }
  | .armed _ => s.modChan k fun ch => { ch with state := .disabled, due := none }
  | .on _ _ => s.cutPulse .disabled k
  | .gap _ _ => s.cutPulse .disabled k

/-- DISABLE_CHANNEL after the privilege check (R105). -/
def State.disableChannel (p : PortNum) (channel : Byte) (s : State) : State :=
  match namedChan channel with
  | none => s.answer p .range Code.disableChannel []
  | some k =>
    let s := s.disable k
    s.answer p .ok Code.disableChannel [(s.chans.get k).state.phase.code]

/-- DISABLE_CHANNEL (R105). -/
def execDisableChannel (p : PortNum) (channel : Byte) (s : State) : Host.Outcome State Fault Refusal :=
  transact p (fun s => s.privileged p Code.disableChannel (s.hasSetup p) (State.disableChannel p channel)) s

/-- The result field that stands in an unread gate-field byte (R179, log 7). -/
def unreadField (n : Nat) (pending : Bool) : ResultField := resultFieldNumbered (Config.unreadGateField n pending)

/-- READ_CHANNEL (R106); the free bytes of its payload use one free choice. -/
def execReadChannel (p : PortNum) (channel : Byte) (s : State) : Host.Outcome State Fault Refusal :=
  transact p (fun s =>
    match namedChan channel with
    | none => s.answer p .range Code.readChannel []
    | some k =>
      (s.answer p .ok Code.readChannel
        ((s.chans.get k).bytes k (unreadField s.frees false) (unreadField s.frees true))).chose) s

end Sys2Proof.Machine
end

