-- ==== Sys2Proof/Machine/Batches.lean ====
section
/-! DEFINITION. The job commands and the commands on the open batch and the queue (spec/07 section 7.5, spec/08). -/

namespace Sys2Proof.Machine

/-! ## Jobs -/

/-- The largest batch size (Table 8-1). -/
def batchSizeLimit : Nat := 50000

/-- Is job slot `j` in use (R147)? -/
def State.jobInUse (j : JobNum) (s : State) : Bool :=
  s.bfu.cutJob == j || s.bfu.openBatch.job == j
    || s.ttb.countRecords (fun r => r.uncountedBlank && r.job == j) != 0

/-- A slot as it is read (R151, R181). -/
def State.jobBytes (j : JobNum) (s : State) : List Byte :=
  (s.bfu.jobs.get j).bytes j (s.bfu.cutJob == j) (s.jobInUse j)

/-- Changing a job slot. -/
def State.modJob (j : JobNum) (f : JobSlot → JobSlot) (s : State) : State :=
  s.modBfu fun b => { b with jobs := b.jobs.modify j f }

/-- A slot defined afresh (R148). -/
def JobSlot.define (order : BitVec 24) (size quota : Nat) : JobSlot where
  defined := true
  order := order
  size := min size batchSizeLimit
  next := none
  quota := quota
  closed := 0

/-- SET_JOB after the privilege check (R148). -/
def State.setJob (p : PortNum) (slot : Byte) (order : BitVec 24) (size quota : Word) (s : State) : State :=
  match namedJob slot with
  | none => s.answer p .range Code.setJob []
  | some j =>
    if size = 0 then s.answer p .range Code.setJob []
    else if s.jobInUse j then s.answer p .busy Code.setJob []
    else
      let s := s.modJob j fun _ => JobSlot.define order size.toNat quota.toNat
      s.answer p .ok Code.setJob (s.jobBytes j)

/-- SET_JOB (R148). -/
def execSetJob (p : PortNum) (slot : Byte) (order : BitVec 24) (size quota : Word) (s : State) :
    Host.Outcome State Fault Refusal :=
  transact p (fun s => s.privileged p Code.setJob (s.hasSetup p) (State.setJob p slot order size quota)) s

/-- SET_BATCH_SIZE after the privilege check (R149). -/
def State.setBatchSize (p : PortNum) (slot : Byte) (size : Word) (s : State) : State :=
  match namedJob slot with
  | none => s.answer p .range Code.setBatchSize []
  | some j =>
    if size = 0 ∨ (s.bfu.jobs.get j).defined = false then s.answer p .range Code.setBatchSize []
    else
      (s.modJob j fun x => { x with next := some (min size.toNat batchSizeLimit) }).answer p .ok Code.setBatchSize []

/-- SET_BATCH_SIZE (R149). -/
def execSetBatchSize (p : PortNum) (slot : Byte) (size : Word) (s : State) : Host.Outcome State Fault Refusal :=
  transact p (fun s => s.privileged p Code.setBatchSize (s.hasSetup p) (State.setBatchSize p slot size)) s

/-- SWITCH_JOB after the privilege check (R150). -/
def State.switchJob (p : PortNum) (slot : Byte) (s : State) : State :=
  match namedJob slot with
  | none => s.answer p .range Code.switchJob []
  | some j =>
    if (s.bfu.jobs.get j).defined then
      (s.modBfu fun b => { b with cutJob := j }).answer p .ok Code.switchJob
        [byteOf s.bfu.cutJob.val, byteOf j.val]
    else s.answer p .range Code.switchJob []

/-- SWITCH_JOB (R150). -/
def execSwitchJob (p : PortNum) (slot : Byte) (s : State) : Host.Outcome State Fault Refusal :=
  transact p (fun s => s.privileged p Code.switchJob (s.hasSetup p) (State.switchJob p slot)) s

/-- READ_JOB (R151). -/
def execReadJob (p : PortNum) (slot : Byte) (s : State) : Host.Outcome State Fault Refusal :=
  transact p (fun s =>
    match namedJob slot with
    | none => s.answer p .range Code.readJob []
    | some j => s.answer p .ok Code.readJob (s.jobBytes j)) s

/-! ## The open batch and the queue -/

/-- READ_OPEN (R142). -/
def execReadOpen (p : PortNum) (s : State) : Host.Outcome State Fault Refusal :=
  transact p (fun s => s.answer p .ok Code.readOpen s.bfu.openBatch.bytes) s

/-- CLOSE_BATCH after the privilege check (R140). -/
def State.forceClose (p : PortNum) (s : State) : State :=
  let o := s.bfu.openBatch
  if o.inStack = 0 then s.answer p .empty Code.closeBatch []
  else if s.bfu.hasRoom then
    (s.placeBatchEnd.closeBatch false true o.job).answer p .ok Code.closeBatch (bytes16 o.number)
  else s.answer p .busy Code.closeBatch []

/-- CLOSE_BATCH: SETUP or BATCH (R140). -/
def execCloseBatch (p : PortNum) (s : State) : Host.Outcome State Fault Refusal :=
  transact p (fun s => s.privileged p Code.closeBatch (s.hasSetup p || s.hasBatch p) (State.forceClose p)) s

/-- READ_BATCH (R155). -/
def execReadBatch (p : PortNum) (entry : Byte) (s : State) : Host.Outcome State Fault Refusal :=
  transact p (fun s =>
    match s.bfu.queue[entry.toNat]? with
    | none => s.answer p .range Code.readBatch []
    | some b => s.answer p .ok Code.readBatch (byteOf s.bfu.queue.length :: b.bytes)) s

/-- POP_BATCH after the privilege check; a queue that falls below 16 entries clears the QFULL flag (R136, R156). -/
def State.pop (p : PortNum) (s : State) : State :=
  match s.bfu.queue with
  | [] => s.answer p .empty Code.popBatch []
  | b :: rest =>
    (s.modBfu fun u => { u with queue := rest, qfull := if s.bfu.hasRoom then u.qfull else false }).answer p .ok
      Code.popBatch (byteOf rest.length :: b.bytes)

/-- POP_BATCH: BATCH (R156). -/
def execPopBatch (p : PortNum) (s : State) : Host.Outcome State Fault Refusal :=
  transact p (fun s => s.privileged p Code.popBatch (s.hasBatch p) (State.pop p)) s

end Sys2Proof.Machine
end

