-- ==== Sys2Proof/Machine/EventCommands.lean ====
section
/-! DEFINITION. SET_EVENTS, READ_EVENTS and CLEAR_EVENTS (spec/09 section 9.3). -/

namespace Sys2Proof.Machine

/-- The requests a new enable set discards: those of the newly enabled events (R163). -/
def EventSets.discarded (new : EventSet) (x : EventSets) : EventSet := x.request &&& (new &&& ~~~x.enable)

/-- The sets after SET_EVENTS (R163). -/
def EventSets.enableOnly (new : EventSet) (x : EventSets) : EventSets :=
  ⟨x.request &&& ~~~(x.discarded new), new⟩

/-- The sets after CLEAR_EVENTS (R164). -/
def EventSets.clear (named : EventSet) (x : EventSets) : EventSets := { x with request := x.request &&& ~~~named }

/-- Storing a port's event sets. -/
def State.setEventSets (p : PortNum) (x : EventSets) (s : State) : State := { s with events := s.events.put p x }

/-- SET_EVENTS (R163). -/
def execSetEvents (p : PortNum) (events : Word) (s : State) : Host.Outcome State Fault Refusal :=
  transact p (fun s =>
    match namedEvents events with
    | none => s.answer p .range Code.setEvents []
    | some new =>
      let old := s.events.get p
      let x := old.enableOnly new
      (s.setEventSets p x).answer p .ok Code.setEvents
        (eventBytes x.request ++ eventBytes x.enable ++ eventBytes (old.discarded new))) s

/-- READ_EVENTS (R165). -/
def execReadEvents (p : PortNum) (s : State) : Host.Outcome State Fault Refusal :=
  transact p (fun s =>
    let x := s.events.get p
    s.answer p .ok Code.readEvents (eventBytes x.request ++ eventBytes x.enable ++ [flagBit x.attn 0])) s

/-- CLEAR_EVENTS (R164). -/
def execClearEvents (p : PortNum) (events : Word) (s : State) : Host.Outcome State Fault Refusal :=
  transact p (fun s =>
    match namedEvents events with
    | none => s.answer p .range Code.clearEvents []
    | some named =>
      let x := (s.events.get p).clear named
      (s.setEventSets p x).answer p .ok Code.clearEvents (eventBytes x.request ++ eventBytes x.enable)) s

end Sys2Proof.Machine
end

