-- ==== Sys2Proof/Machine/Dispatch.lean ====
section
/-! DEFINITION. The meaning of every row of spec/opcode_table.json: its effect on everything but the queue. -/

namespace Sys2Proof.Machine

/-- What a command does. -/
def exec (i : Instr) (s : State) : Host.Outcome State Fault Refusal :=
  match i with
  | .forwardCount jumped feed splice => Sys2Proof.Machine.execForwardCount jumped feed splice s
  | .backwardCount jumped => Sys2Proof.Machine.execBackwardCount jumped s
  | .indexEdge feed splice => Sys2Proof.Machine.execIndexEdge feed splice s
  | .speedWindowEnd => Sys2Proof.Machine.execSpeedWindowEnd s
  | .powerOnReset pins => Sys2Proof.Machine.execPowerOnReset pins s
  | .rst pins => Sys2Proof.Machine.execRst pins s
  | .initEnd => Sys2Proof.Machine.execInitEnd s
  | .timerExpiry k => Sys2Proof.Machine.execTimerExpiry k s
  | .referenceCycleLatch address => Sys2Proof.Machine.execReferenceCycleLatch address s
  | .readTransaction address clocked => Sys2Proof.Machine.execReadTransaction address clocked s
  | .unknownCmd p code => Sys2Proof.Machine.execUnknownCmd p code s
  | .short p code => Sys2Proof.Machine.execShort p code s
  | .readPhase p => Sys2Proof.Machine.execReadPhase p s
  | .capture p => Sys2Proof.Machine.execCapture p s
  | .readSnapshot p => Sys2Proof.Machine.execReadSnapshot p s
  | .purge p => Sys2Proof.Machine.execPurge p s
  | .rejectRange p a b => Sys2Proof.Machine.execRejectRange p a b s
  | .resync p => Sys2Proof.Machine.execResync p s
  | .setLine p l kc counts t => Sys2Proof.Machine.execSetLine p l kc counts t s
  | .readLine p => Sys2Proof.Machine.execReadLine p s
  | .readRec p index => Sys2Proof.Machine.execReadRec p index s
  | .readRecSer p serial => Sys2Proof.Machine.execReadRecSer p serial s
  | .readWindow p => Sys2Proof.Machine.execReadWindow p s
  | .writeRec p index entries => Sys2Proof.Machine.execWriteRec p index entries s
  | .writeRecSer p serial entries => Sys2Proof.Machine.execWriteRecSer p serial entries s
  | .setPort p target privileges base length dirAccess mask => Sys2Proof.Machine.execSetPort p target privileges base length dirAccess mask s
  | .readPort p target => Sys2Proof.Machine.execReadPort p target s
  | .readFault p target => Sys2Proof.Machine.execReadFault p target s
  | .clearFault p => Sys2Proof.Machine.execClearFault p s
  | .portReset p target => Sys2Proof.Machine.execPortReset p target s
  | .setChannel p channel config => Sys2Proof.Machine.execSetChannel p channel config s
  | .enableChannel p channel => Sys2Proof.Machine.execEnableChannel p channel s
  | .disableChannel p channel => Sys2Proof.Machine.execDisableChannel p channel s
  | .readChannel p channel => Sys2Proof.Machine.execReadChannel p channel s
  | .setJob p slot order size quota => Sys2Proof.Machine.execSetJob p slot order size quota s
  | .setBatchSize p slot size => Sys2Proof.Machine.execSetBatchSize p slot size s
  | .switchJob p slot => Sys2Proof.Machine.execSwitchJob p slot s
  | .readJob p slot => Sys2Proof.Machine.execReadJob p slot s
  | .readOpen p => Sys2Proof.Machine.execReadOpen p s
  | .closeBatch p => Sys2Proof.Machine.execCloseBatch p s
  | .readBatch p entry => Sys2Proof.Machine.execReadBatch p entry s
  | .popBatch p => Sys2Proof.Machine.execPopBatch p s
  | .setEvents p events => Sys2Proof.Machine.execSetEvents p events s
  | .readEvents p => Sys2Proof.Machine.execReadEvents p s
  | .clearEvents p events => Sys2Proof.Machine.execClearEvents p events s

end Sys2Proof.Machine
end

