-- ==== Sys2Proof/Safety.lean ====
section
/-! DEFINITION. What a sound state of the part is: the ranges and laws the manual gives each block, every one of which
holds at reset and is kept by every step. Also the terms in which statements speak of a command's outcome. -/

namespace Sys2Proof.Machine

/-! ## Outcomes -/

/-- The command answers a next state, and that state is as `P` says. -/
def Completes (o : Host.Outcome State Fault Refusal) (P : State → Prop) : Prop := ∃ t, o = .next t ∧ P t

/-- Is the event in the request set of port `p` (R159)? -/
def State.requested (s : State) (p : PortNum) (e : Event) : Bool := (s.events.get p).request.getLsbD e.bit

/-- The state after a command of port `p` that has done its work, `s`: the response stands in the port's buffer and the
bus is IDLE (R66, R171). -/
def State.answered (s : State) (p : PortNum) (r : Response) : State :=
  { s with ports := s.ports.modify p fun q => { q with response := r }, bti := .idle }

/-- A fault found for a command of port `p` on `s`: the command changes nothing but the port's fault record and buffer,
the latched reference cycle and, at a capture, the port's FAULT request (R61, R62); the bus is IDLE after it. -/
structure State.Faulted (s : State) (p : PortNum) (f : FaultRecord) (t : State) : Prop where
  rest : t = { s with ports := t.ports, events := t.events, bti := .idle }
  port : t.ports.get p = { s.ports.get p with
    reference := if s.bti = .code p then (s.ports.get p).reference else s.phu.cycle
    fault := match (s.ports.get p).fault with
      | .clear => .frozen false f
      | .frozen _ first => .frozen true first
    response := ⟨f.kind.status, f.code, []⟩ }
  others : ∀ q, q ≠ p → t.ports.get q = s.ports.get q
  enables : ∀ q, (t.events.get q).enable = (s.events.get q).enable
  requests : ∀ q e, t.requested q e
    = (s.requested q e || (q == p && e == .fault && !(s.ports.get p).fault.isFrozen))

/-- How many slots hold a record that passes `f`. -/
def Ttb.holding (t : Ttb) (f : Record → Bool) : Nat := (List.finRange 64).countP fun k => (t.slots.get k).any f

/-- A set of names sent as two bytes, from the bit numbers it holds (R178). -/
def fieldSet (f : Nat → Bool) : List Byte :=
  bytes16 ((List.range 10).foldl (fun acc i => if f i then acc ||| (1#16 <<< i) else acc) 0)

end Sys2Proof.Machine

namespace Sys2Proof

/-! ## The commands by what they may do -/

/-- The port a write transaction's row arrived on (R47). -/
def Instr.port : Instr → Option PortNum
  | .unknownCmd p _ => some p
  | .short p _ => some p
  | .readPhase p => some p
  | .capture p => some p
  | .readSnapshot p => some p
  | .purge p => some p
  | .rejectRange p _ _ => some p
  | .resync p => some p
  | .setLine p _ _ _ _ => some p
  | .readLine p => some p
  | .readRec p _ => some p
  | .readRecSer p _ => some p
  | .readWindow p => some p
  | .writeRec p _ _ => some p
  | .writeRecSer p _ _ => some p
  | .setPort p _ _ _ _ _ _ => some p
  | .readPort p _ => some p
  | .readFault p _ => some p
  | .clearFault p => some p
  | .portReset p _ => some p
  | .setChannel p _ _ => some p
  | .enableChannel p _ => some p
  | .disableChannel p _ => some p
  | .readChannel p _ => some p
  | .setJob p _ _ _ _ => some p
  | .setBatchSize p _ _ => some p
  | .switchJob p _ => some p
  | .readJob p _ => some p
  | .readOpen p => some p
  | .closeBatch p => some p
  | .readBatch p _ => some p
  | .popBatch p => some p
  | .setEvents p _ => some p
  | .readEvents p => some p
  | .clearEvents p _ => some p
  | .forwardCount _ _ _ => none
  | .backwardCount _ => none
  | .indexEdge _ _ => none
  | .speedWindowEnd => none
  | .powerOnReset _ => none
  | .rst _ => none
  | .initEnd => none
  | .timerExpiry _ => none
  | .referenceCycleLatch _ => none
  | .readTransaction _ _ => none

/-- Is the row a transaction on the bus? -/
def Instr.onBus (c : Instr) : Bool :=
  c.port.isSome ||
    match c with
    | .referenceCycleLatch _ => true
    | .readTransaction _ _ => true
    | _ => false

/-- Is the row a reset? -/
def Instr.isReset : Instr → Bool
  | .powerOnReset _ => true
  | .rst _ => true
  | _ => false

/-- Can the row make an advance: a forward count or an index edge (R7, R9)? -/
def Instr.movesLine : Instr → Bool
  | .forwardCount _ _ _ => true
  | .indexEdge _ _ => true
  | _ => false

/-- The port another command names to change its state (R47). -/
def Instr.namesPort : Instr → Option Byte
  | .setPort _ target _ _ _ _ _ => some target
  | .portReset _ target => some target
  | _ => none

/-- The port and code of a command that a port with the privileges `x` may not give (Table 3-2). -/
def Instr.lacking (x : Machine.Privileges) : Instr → Option (PortNum × Byte)
  | .purge p => if x.setup then none else some (p, 0x20)
  | .rejectRange p _ _ => if x.setup then none else some (p, 0x21)
  | .resync p => if x.setup then none else some (p, 0x22)
  | .setLine p _ _ _ _ => if x.setup then none else some (p, 0x23)
  | .setPort p _ _ _ _ _ _ => if x.setup then none else some (p, 0x40)
  | .portReset p target => if x.setup || target.toNat == p.val then none else some (p, 0x44)
  | .setChannel p _ _ => if x.setup then none else some (p, 0x50)
  | .enableChannel p _ => if x.setup then none else some (p, 0x51)
  | .disableChannel p _ => if x.setup then none else some (p, 0x52)
  | .setJob p _ _ _ _ => if x.setup then none else some (p, 0x60)
  | .setBatchSize p _ _ => if x.setup then none else some (p, 0x61)
  | .switchJob p _ => if x.setup then none else some (p, 0x62)
  | .closeBatch p => if x.setup || x.batch then none else some (p, 0x65)
  | .popBatch p => if x.batch then none else some (p, 0x67)
  | _ => none

end Sys2Proof

namespace Sys2Proof.Machine

/-! ## Phase Unit (spec/01) -/

/-- The ranges of Table 1-1; an UNSYNCED phase has no debt (R13, R17). -/
structure Phu.Ok (u : Phu) : Prop where
  counts : 256 ≤ u.p ∧ u.p ≤ 16384
  mc : u.mc < u.p
  tolerance : u.t ≤ 63
  missing : u.missing ≤ 2
  debt : u.debt ≤ 15
  speed : -32768 ≤ u.speed ∧ u.speed ≤ 32767
  unsynced : u.phase = .unsynced → u.debt = 0

/-! ## Tracking Table (spec/02) -/

/-- Where records stand: L and Kc in their ranges (R21); each record in the slot of its serial and each IN_LINE one at a
position below L (R19); a position holds an IN_LINE record exactly when the advances since the table was emptied have
reached it (R27); identities are used once (R29). -/
structure Ttb.Placed (cycle : Word) (t : Ttb) : Prop where
  line : 2 ≤ t.l ∧ t.l ≤ 48
  counting : 1 ≤ t.kc ∧ t.kc < t.l
  slot : ∀ k r, t.slots.get k = some r → slotOf r.serial = k
  position : ∀ k r, t.slots.get k = some r → r.place = .inLine → r.position cycle < t.l
  filled : ∀ n < t.l, (t.lookup (cycle - BitVec.ofNat 16 n)).any Record.inLine = decide (n < t.advances)
  identity : ∀ k r, t.slots.get k = some r → r.birth < t.births

/-- What a record's marks imply: a FAULT result carries a reject (R30), a SPLICE does (R132), a DIVERTED route does
(Table 5-2), and, while LOST, every blank on the line does (R37). -/
structure Ttb.Marked (t : Ttb) : Prop where
  fault : ∀ k r f, t.slots.get k = some r → r.results.get f = .fault → r.reject.isSome
  splice : ∀ k r, t.slots.get k = some r → r.kind = .splice → r.reject.isSome
  diverted : ∀ k r, t.slots.get k = some r → r.route = .diverted → r.reject.isSome
  lost : ∀ k r, t.tracking = .lost → t.slots.get k = some r → r.untrusted = true → r.reject.isSome

/-- Which records are counted: on the line exactly those at Kc or beyond, and every DEPARTED one (R24, R36); the batch is
present when the class is neither UNCOUNTED nor VOID_SKIP (R180). -/
structure Ttb.Counted (cycle : Word) (t : Ttb) : Prop where
  onLine : ∀ k r, t.slots.get k = some r → r.place = .inLine → (r.cls = .uncounted ↔ r.position cycle < t.kc)
  departed : ∀ k r, t.slots.get k = some r → r.place = .departed → r.cls ≠ .uncounted
  batch : ∀ k r, t.slots.get k = some r → (r.batch = none ↔ r.cls = .uncounted ∨ r.cls = .voidSkip)

/-! ## Ports (spec/03) -/

/-- The parts a fault record holds, by its kind (Table 3-5). -/
def FaultRecord.shaped (f : FaultRecord) : Bool :=
  match f.kind, f.index, f.position, f.serial with
  | .privilege, none, none, none => true
  | .access, _, none, none => true
  | .access, none, none, some _ => true
  | .window, some _, none, none => true
  | .window, none, some _, some _ => true
  | .line, some _, none, none => true
  | .line, some _, some _, some _ => true
  | _, _, _, _ => false

/-- The ranges of Table 3-1, and a payload whose length fits its byte (R176). -/
structure Port.Ok (q : Port) : Prop where
  base : q.window.base ≤ 47
  length : 1 ≤ q.window.length ∧ q.window.length ≤ 16
  fault : ∀ more f, q.fault = .frozen more f → f.shaped = true
  payload : q.response.payload.length ≤ 255

/-! ## Channels (spec/05, spec/06) -/

/-- A configuration within the present line (Table 5-1, R86, R103, R110). -/
structure ChanConfig.Ok (l p : Nat) (c : ChanConfig) : Prop where
  station : c.sp < l
  onAngle : c.onAngle < p
  leadLimit : c.leadLimit < p
  latencyOn : c.latencyOn ≤ 20000
  latencyOff : c.latencyOff ≤ 20000
  minSpeed : c.minSpeed ≤ 32767
  mode : c.modeOk p false = true

/-- One channel: its configurations; a pending one is held only while ON or GAP (R99); latched leads lie within the lead
limit (R110); the overrun count saturates (R93). -/
structure Channel.Ok (l p : Nat) (ch : Channel) : Prop where
  config : ch.config.Ok l p
  pending : ∀ c, ch.pending = some c → c.Ok l p ∧ ch.state.pulse.isSome
  leads : ∀ x, ch.state.latch = some x → x.onLead ≤ ch.config.leadLimit ∧ x.offLead ≤ ch.config.leadLimit
  overruns : ch.overruns ≤ 65535

/-- The sixteen channels: a target is held, and an output active, only while the absolute count is presented (R89, R90);
a channel waits, and keeps what a spell of inhibition dropped or cut, only while it is not (R91); an odd channel is
CLAIMED exactly while its even partner holds TIME_LONG, and no other channel is (R102). -/
structure State.ChannelsOk (s : State) : Prop where
  each : ∀ k, (s.chans.get k).Ok s.ttb.l s.phu.p
  held : ∀ k, (s.chans.get k).state.latch.isSome → s.phu.presented = true
  waiting : ∀ k, (s.chans.get k).state = .waiting → s.phu.presented = false
  spell : ∀ k, s.phu.presented = true → (s.chans.get k).dropped = none ∧ (s.chans.get k).cut = none
  claimed : ∀ k, isEven k = true → ((s.chans.get (partnerOf k)).state = .claimed ↔ (s.chans.get k).holdsLong = true)
  even : ∀ k, isEven k = true → (s.chans.get k).state ≠ .claimed
  odd : ∀ k, isEven k = false → (s.chans.get k).holdsLong = false

/-! ## Batches (spec/07, spec/08) -/

/-- The ranges of Table 8-1. -/
structure JobSlot.Ok (j : JobSlot) : Prop where
  size : 1 ≤ j.size ∧ j.size ≤ 50000
  next : ∀ n, j.next = some n → 1 ≤ n ∧ n ≤ 50000
  quota : j.quota ≤ 65535
  closed : j.closed ≤ 65535

/-- The open batch (Table 7-1): it stays below its size unless a close is pending (R134, R135); OVERSIZE says that the
stack has passed the size (R135); its serials are present exactly when they can be (section 7.1, R133). -/
structure OpenBatch.Ok (o : OpenBatch) : Prop where
  size : 1 ≤ o.ne ∧ o.ne ≤ 50000
  good : o.good ≤ 65535
  diverted : o.diverted ≤ 65535
  passed : o.passed ≤ 65535
  sample : o.sample ≤ 65535
  pending : o.closePending = decide (o.ne ≤ o.inStack)
  oversize : o.oversize = decide (o.ne < o.inStack)
  contaminated : o.contaminated = decide (0 < o.passed)
  first : o.firstSerial.isNone = o.countedNothing
  last : o.lastSerial.isNone = o.countedNothing
  inStack : o.lastInStack.isNone = decide (o.inStack = 0)

/-- The Batch Forming Unit: the cut job names a defined slot (R146); the queue holds at most 16 entries whose numbers rise
by one up to the open batch's (R153); the QFULL flag stands only in a full spell (R136). -/
structure Bfu.Ok (b : Bfu) : Prop where
  jobs : ∀ j, (b.jobs.get j).Ok
  cutJob : (b.jobs.get b.cutJob).defined = true
  openBatch : b.openBatch.Ok
  length : b.queue.length ≤ queueCapacity
  numbers : ∀ i x, b.queue[i]? = some x → x.number + BitVec.ofNat 16 (b.queue.length - i) = b.openBatch.number
  present : ∀ x ∈ b.queue, x.firstSerial.isSome ∧ x.lastSerial.isSome
  qfull : b.qfull = true → b.queue.length = queueCapacity

/-! ## The whole part -/

/-- A sound state. -/
structure State.Ok (s : State) : Prop where
  phase : s.phu.Ok
  placed : s.ttb.Placed s.phu.cycle
  marked : s.ttb.Marked
  counted : s.ttb.Counted s.phu.cycle
  ports : ∀ p, (s.ports.get p).Ok
  channels : s.ChannelsOk
  batches : s.bfu.Ok

end Sys2Proof.Machine
end

