-- ==== Sys2Proof/WellFormed.lean ====
section
/-! DEFINITION. Which commands a controller or a pin can give as a row of the table. Operand values are not checked
here: the part takes any value and its owning rule refuses it (spec/10 R173). -/

namespace Sys2Proof

/-- Can this row arise? A field list states at most 10 entries (R174: a longer one is the row SHORT); UNKNOWN_CMD names
a code outside Table 10-2 (R172); SHORT names a code of the table that has operands (R175). -/
def Instr.wellFormed : Instr → Bool
  | .writeRec _ _ es => decide (es.length ≤ maxEntries)
  | .writeRecSer _ _ es => decide (es.length ≤ maxEntries)
  | .unknownCmd _ code => !knownCode code
  | .short _ code => knownCode code && operandBytes code != some 0
  | _ => true

end Sys2Proof
end

