-- ==== Sys2Proof/Certificates/Slice0/Obligations.lean ====
section
/-! DEFINITION. The statements about the RKV-460 for the provers. "Stated" ones formalise numbered rules of spec/; the
others rest on what their entry in OBLIGATIONS.json cites. A port's command belongs to a write transaction whose address
the part has acknowledged on that port (`s.bti = .code p`), and the stated ones and some others speak of it there. A
command given with no address acknowledged on its port stands for a whole transaction, whose acknowledge latches the
reference cycle first: that is the model's choice (log 5), and WriteAddressLatches states it for every command. The rest
cover both with `s.openWrite p`, which is `s` itself where the address stands acknowledged. What a channel keeps of a spell of inhibition
(`dropped`, `cut`) is held in fields of the model's own, and that commands leave them is the model's choice (log 30). -/

section

open Sys2Proof Sys2Proof.Machine

/-! ## The queue, time and resets -/

/-- A step takes the command at the front of the queue with the rest left waiting. -/
def Obligations.StepTakesFrontCommand : Prop :=
  ∀ (s : State) (c : Instr) (rest : List Instr), s.pending = c :: rest → step s = exec c { s with pending := rest }

/-- Every command completes, and none, a reset included, adds to or takes from the commands that wait (the queue is the
model's, log 19). -/
def Obligations.CommandsLeaveTheQueue : Prop :=
  ∀ (s : State) (c : Instr), Completes (exec c s) fun t => t.pending = s.pending

/-- With no command waiting, one CLK period passes (the model's choice, log 2): each running timer loses one period, the
rows that fall due are put into the empty queue, and nothing else of the state changes but the clock and the count of free
choices. The order of a window end and the expiries due with it is free (log 18), as is the length of INIT (log 6). -/
def Obligations.IdleStepCountsClk : Prop :=
  ∀ (s : State) (k : ChanNum) (init window timers : List Instr), s.pending = [] →
    init = (if s.bti = .init ∧ min Config.initPeriods 5000 ≤ s.clock.init + 1 then [Instr.initEnd] else []) →
    window = (if 20000 ≤ s.clock.window + 1 then [Instr.speedWindowEnd] else []) →
    timers = (((List.finRange 16).filter fun j => decide (∃ x ∈ (s.chans.get j).state.timer, x.left ≤ 1)).map
      Instr.timerExpiry) →
    Completes (step s) fun t =>
      t = { s with chans := t.chans, clock := t.clock, frees := s.frees + 1, pending := t.pending } ∧
      t.chans.get k = { s.chans.get k with state := match (s.chans.get k).state with
        | .on l pulse => .on l { pulse with timer := pulse.timer.map fun x => ⟨x.duration, x.left - 1⟩ }
        | .gap l pulse => .gap l { pulse with timer := pulse.timer.map fun x => ⟨x.duration, x.left - 1⟩ }
        | other => other } ∧
      t.clock = ⟨if s.clock.window + 1 < 20000 then s.clock.window + 1 else 0,
        if s.bti = .init then s.clock.init + 1 else s.clock.init⟩ ∧
      (t.pending = init ++ window ++ timers ∨ t.pending = init ++ timers ++ window)

/-- The state after a reset is sound, whatever the pins. -/
def Obligations.ResetIsSound : Prop :=
  ∀ (pins : ResetPins) (n : Nat) (waiting : List Instr), (State.resetWith pins n waiting).Ok ∧ State.reset.Ok

/-- What power-on reset and RST leave in the Phase Unit and the Tracking Table. That the decoder of ENC_A and ENC_B starts
from the levels the pins hold at the end of reset is the model's choice (log 1), and so is what they leave in the model's own
fields: the records' identities (log 9), the bytes sent (log 10), the levels of FEED and SPLICE kept (log 12), the time base
(log 15), and the counter of free choices, which goes on (log 17). -/
def Obligations.ResetClearsPhaseAndTable : Prop :=
  ∀ (s : State) (c : Instr) (pins : ResetPins), c = .powerOnReset pins ∨ c = .rst pins →
    Completes (exec c s) fun t =>
      t.phu.phase = .unsynced ∧ t.phu.mc = 0 ∧ t.phu.cycle = 0 ∧ t.phu.debt = 0 ∧ t.phu.missing = 0 ∧
      t.phu.speed = 0 ∧ t.phu.sum = 0 ∧ t.phu.windows = ⟨0, 0, 0, 0⟩ ∧ t.phu.p = 4096 ∧ t.phu.t = 4 ∧
      (∀ p, t.phu.snapshots.get p = none) ∧ t.phu.lastDir = none ∧ t.straps = pins ∧
      t.phu.quad = ⟨pins.encA, pins.encB⟩ ∧ (∀ p, (t.events.get p).request = 0) ∧
      (∀ k, t.ttb.slots.get k = none) ∧ (∀ x, t.ttb.lookup x = none) ∧ t.ttb.tracking = .ready ∧ t.ttb.l = 24 ∧
      t.ttb.kc = 20 ∧ t.ttb.advances = 0 ∧ t.ttb.births = 0 ∧ t.ttb.feed = false ∧ t.ttb.splice = false ∧
      t.clock = ⟨0, 0⟩ ∧ t.sda = [] ∧ t.frees = s.frees

/-- What power-on reset and RST leave in the ports, the channels, the batches, the events and the bus. That nothing is kept of
a spell of inhibition rests on the model's fields for it (log 30). -/
def Obligations.ResetClearsPortsChannelsBatches : Prop :=
  ∀ (s : State) (c : Instr) (pins : ResetPins) (p : PortNum) (k : ChanNum) (j : JobNum),
    c = .powerOnReset pins ∨ c = .rst pins →
    Completes (exec c s) fun t =>
      (t.ports.get p).privileges = (if p = 0 then ⟨true, true⟩ else ⟨false, false⟩) ∧
      (t.ports.get p).window = (if p = 0 then ⟨0, 16, .up, .read⟩ else ⟨0, 1, .up, .none⟩) ∧
      (t.ports.get p).mask = 0 ∧ (t.ports.get p).reference = 0 ∧ (t.ports.get p).fault = .clear ∧
      (t.ports.get p).response = ⟨.nothing, 0, []⟩ ∧
      t.events.get p = ⟨0, 0⟩ ∧ t.attn p = false ∧
      (t.chans.get k).state = .disabled ∧ t.out k = false ∧ (t.chans.get k).overruns = 0 ∧ (t.chans.get k).due = none ∧
      (t.chans.get k).pending = none ∧ (t.chans.get k).state.elapsed = 0 ∧
      (t.chans.get k).dropped = none ∧ (t.chans.get k).cut = none ∧
      (t.chans.get k).config
        = ⟨0, .always, none, 0, 0, .time, 1, 1, 1, 1, 1, 0, 0, 2048, 0⟩ ∧
      t.bfu.jobs.get j = ⟨decide (j = 0), 0, 100, none, 0, 0⟩ ∧ t.bfu.cutJob = 0 ∧ t.bfu.queue = [] ∧
      t.bfu.qfull = false ∧
      t.bfu.openBatch = ⟨0, 0, 100, 0, 0, 0, 0, none, none, none, false, false, false, false⟩ ∧
      t.bti = .init

/-! ## The bus -/

/-- During INIT no transaction has any effect; INIT_END makes the bus IDLE. That INIT_END outside INIT does nothing is the
model's choice (log 6). -/
def Obligations.InitTakesNoTransaction : Prop :=
  ∀ (s : State) (c : Instr),
    (s.bti = .init → (c.onBus = true → exec c s = .next s) ∧
      exec .initEnd s = .next { s with bti := .idle, clock := { s.clock with init := 0 } }) ∧
    (s.bti ≠ .init → exec .initEnd s = .next s)

/-- A well-formed command's bytes, which are those of Table 10-2, with any surplus bytes after them, are framed and read
as that command. The part acknowledges each of the command's bytes and no surplus byte. -/
def Obligations.WireFormsRoundTrip : Prop :=
  ∀ (c : Instr) (p : PortNum) (bytes surplus before after : List Byte) (b : Byte) (w : Word) (two : Nat → List Byte)
    (wire : Instr → Option (PortNum × List Byte)),
    two = (fun n => [BitVec.ofNat 8 (n / 256), BitVec.ofNat 8 n]) →
    wire = (fun c => match c with
      | .readPhase q => some (q, [0x10])
      | .capture q => some (q, [0x11])
      | .readSnapshot q => some (q, [0x12])
      | .purge q => some (q, [0x20])
      | .rejectRange q a b => some (q, [0x21, a, b])
      | .resync q => some (q, [0x22])
      | .setLine q l kc counts tolerance => some (q, [0x23, l, kc] ++ two counts.toNat ++ [tolerance])
      | .readLine q => some (q, [0x24])
      | .readRec q index => some (q, [0x30, index])
      | .readRecSer q serial => some (q, 0x31 :: two serial.toNat)
      | .readWindow q => some (q, [0x32])
      | .writeRec q index es =>
        some (q, [0x33, index, BitVec.ofNat 8 es.length] ++ es.flatMap fun e => [e.field, e.value])
      | .writeRecSer q serial es =>
        some (q, 0x34 :: two serial.toNat ++ BitVec.ofNat 8 es.length :: es.flatMap fun e => [e.field, e.value])
      | .setPort q target privileges base length dirAccess mask =>
        some (q, [0x40, target, privileges, base, length, dirAccess] ++ two mask.toNat)
      | .readPort q target => some (q, [0x41, target])
      | .readFault q target => some (q, [0x42, target])
      | .clearFault q => some (q, [0x43])
      | .portReset q target => some (q, [0x44, target])
      | .setChannel q channel x => some (q, [0x50, channel, x.sp, x.gate, x.gateField, x.stamp]
          ++ two x.onAngle.toNat ++ two x.offAngle.toNat ++ [x.mode] ++ two x.duration.toNat
          ++ two (x.longDuration.toNat / 65536) ++ two x.longDuration.toNat ++ [x.dotCount] ++ two x.dot.toNat
          ++ two x.gap.toNat ++ two x.latencyOn.toNat ++ two x.latencyOff.toNat ++ two x.leadLimit.toNat
          ++ two x.minSpeed.toNat)
      | .enableChannel q channel => some (q, [0x51, channel])
      | .disableChannel q channel => some (q, [0x52, channel])
      | .readChannel q channel => some (q, [0x53, channel])
      | .setJob q slot order size quota => some (q, [0x60, slot, BitVec.ofNat 8 (order.toNat / 65536)]
          ++ two order.toNat ++ two size.toNat ++ two quota.toNat)
      | .setBatchSize q slot size => some (q, [0x61, slot] ++ two size.toNat)
      | .switchJob q slot => some (q, [0x62, slot])
      | .readJob q slot => some (q, [0x63, slot])
      | .readOpen q => some (q, [0x64])
      | .closeBatch q => some (q, [0x65])
      | .readBatch q entry => some (q, [0x66, entry])
      | .popBatch q => some (q, [0x67])
      | .setEvents q events => some (q, 0x70 :: two events.toNat)
      | .readEvents q => some (q, [0x71])
      | .clearEvents q events => some (q, 0x72 :: two events.toNat)
      | _ => none) →
    wireBytes c = wire c ∧ bytes16 w = two w.toNat ∧
    (c.wellFormed = true → wire c = some (p, bytes) →
      (Bti.receiveAll p (bytes ++ surplus)).finish = some c ∧
      (bytes = before ++ b :: after → ((Bti.receiveAll p before).receive b).2 = true) ∧
      ((Bti.receiveAll p (bytes ++ surplus)).receive b).2 = false)

/-- A transaction broken off after its code and before its last operand byte is SHORT; one broken off before its code
takes nothing; an unknown code is UNKNOWN_CMD, and a length byte above 10 is SHORT, whatever follows: the part
acknowledges neither that code or length byte nor any byte after it. The known codes are those of Table 10-2; which bytes of
a known command are acknowledged stands in WireFormsRoundTrip. -/
def Obligations.BrokenTransactionsAreRefused : Prop :=
  ∀ (c : Instr) (p : PortNum) (code b : Byte) (first rest : List Byte) (len : Byte) (serial : Word),
    (knownCode code = true ↔ code ∈ ([0x10, 0x11, 0x12] ++ [0x20, 0x21, 0x22, 0x23, 0x24] ++ [0x30, 0x31, 0x32, 0x33, 0x34]
      ++ [0x40, 0x41, 0x42, 0x43, 0x44] ++ [0x50, 0x51, 0x52, 0x53] ++ [0x60, 0x61, 0x62, 0x63, 0x64, 0x65, 0x66, 0x67]
      ++ [0x70, 0x71, 0x72] : List Byte)) ∧
    (c.wellFormed = true → wireBytes c = some (p, code :: (first ++ rest)) → rest ≠ [] →
      (Bti.receiveAll p (code :: first)).finish = some (.short p code)) ∧
    (Bti.receiveAll p []).finish = none ∧
    (knownCode code = false → (Bti.receiveAll p (code :: rest)).finish = some (.unknownCmd p code) ∧
      ((Bti.receiveAll p []).receive code).2 = false ∧ ((Bti.receiveAll p (code :: rest)).receive b).2 = false) ∧
    (10 < len.toNat → ∀ upTo ∈ [[0x33, code], 0x34 :: bytes16 serial],
      (Bti.receiveAll p (upTo ++ len :: rest)).finish = some (.short p (upTo.headD 0)) ∧
      ((Bti.receiveAll p upTo).receive len).2 = false ∧
      ((Bti.receiveAll p (upTo ++ len :: rest)).receive b).2 = false)

/-- UNKNOWN_CMD and SHORT replace the buffer, echo the code, and do nothing else beyond the latch of the reference
cycle. That they do so with a code no transaction could give them is the model's choice (log 20). -/
def Obligations.RefusedTransactionsAnswer : Prop :=
  ∀ (s : State) (p : PortNum) (code : Byte), s.bti ≠ .init →
    exec (.unknownCmd p code) s = .next ((s.openWrite p).answered p ⟨.unknownCmd, code, []⟩) ∧
    exec (.short p code) s = .next ((s.openWrite p).answered p ⟨.short, code, []⟩)

/-- A write address of the block that the straps select latches the cycle number for its port and no other; a foreign
address, read or write, is not acknowledged. A port's command given with no address acknowledged on its port is taken as
if that write address had just been acknowledged: the model's choice (log 5). -/
def Obligations.WriteAddressLatches : Prop :=
  ∀ (s : State) (c : Instr) (p : PortNum) (a : BitVec 7) (base n : Nat), s.bti ≠ .init →
    ([0x20, 0x28, 0x60, 0x68] : List Nat)[s.straps.addr.toNat]? = some base →
    s.openWrite p = (if s.bti = .code p then s
      else { s with ports := s.ports.modify p fun q => { q with reference := s.phu.cycle } }) ∧
    (a.toNat = base + p.val → exec (.referenceCycleLatch a) s
      = .next { s with ports := s.ports.modify p fun q => { q with reference := s.phu.cycle }, bti := .code p }) ∧
    (a.toNat < base ∨ base + 7 < a.toNat →
      exec (.referenceCycleLatch a) s = .next { s with bti := .idle } ∧
      exec (.readTransaction a n) s = .next { s with bti := .idle }) ∧
    (c.port = some p → s.bti ≠ .code p → exec c s = exec c
      { s with ports := s.ports.modify p fun q => { q with reference := s.phu.cycle }, bti := .code p })

/-- A read transaction sends status, code, length and payload in order and 0xFF after them, and changes nothing but the
bus. The status codes are those of Table 10-4. -/
def Obligations.ReadTransactionSendsBuffer : Prop :=
  ∀ (s : State) (p : PortNum) (a : BitVec 7) (base n i : Nat), s.bti ≠ .init →
    ([0x20, 0x28, 0x60, 0x68] : List Nat)[s.straps.addr.toNat]? = some base → a.toNat = base + p.val →
    Completes (exec (.readTransaction a n) s) fun t =>
      t = { s with bti := .idle, sda := t.sda } ∧ t.sda.length = n ∧
      (i < n → t.sda[i]? = some (match i with
        | 0 => (match (s.ports.get p).response.status with
            | .ok => 0x00 | .masked => 0x01 | .late => 0x02 | .unknown => 0x03 | .window => 0x10 | .access => 0x11
            | .line => 0x12 | .privilege => 0x13 | .frozen => 0x20 | .busy => 0x21 | .range => 0x22 | .empty => 0x23
            | .short => 0x30 | .unknownCmd => 0x31 | .nothing => 0x3F : Byte)
        | 1 => (s.ports.get p).response.code
        | 2 => BitVec.ofNat 8 (s.ports.get p).response.payload.length
        | j + 3 => (s.ports.get p).response.payload.getD j 0xFF))

/-! ## The Phase Unit -/

/-- A count that is no crossing moves mc by one, feeds the speed window and sets the direction; while no channel is at a
point it does nothing else. While UNSYNCED this holds of every count, with the wraps of mc. While the absolute count is
presented, the channels whose points it has reached take their events (`State.pointEvent`, which OnEventFiresOrSkips
spells), in some order; at an advance some of the on events come before it (R95). The quadrature state moves as R1 says:
`forward` is the order in which ENC_A leads ENC_B, a step in it is a forward count, one against it a backward count, and a
change to the opposite state gives none and is what a later count goes on from. -/
def Obligations.CountsInsideTheCycle : Prop :=
  ∀ (s : State) (jumped feed splice : Bool) (now before opposite : Quad) (forward : Quad → Quad), s.phu.mc < s.phu.p →
    forward = (fun x => match x.a, x.b with
      | false, false => ⟨true, false⟩
      | true, false => ⟨true, true⟩
      | true, true => ⟨false, true⟩
      | false, true => ⟨false, false⟩) →
    opposite = ⟨!now.a, !now.b⟩ →
    (now.step .forward false = forward now ∧ now.step .forward true = forward opposite ∧
      (before = now.step .backward false ↔ forward before = now) ∧
      (before = now.step .backward true ↔ forward before = opposite) ∧
      Quad.decode now (forward now) = some .forward ∧ Quad.decode (forward now) now = some .backward ∧
      Quad.decode now opposite = none ∧ Quad.decode now now = none) ∧
    (s.phu.mc + 1 < s.phu.p →
      (∀ k, (s.chans.get k).atPoint s.phu.p ⟨s.phu.cycle, s.phu.mc + 1⟩ = false) →
      Completes (exec (.forwardCount jumped feed splice) s) fun t => t = { s with
        phu := { s.phu with mc := s.phu.mc + 1, lastDir := some .forward, quad := s.phu.quad.step .forward jumped,
                            sum := s.phu.sum + 1 }
        frees := t.frees }) ∧
    (0 < s.phu.mc →
      (∀ k, (s.chans.get k).state.phase = .on →
        (s.chans.get k).atPoint s.phu.p ⟨s.phu.cycle, s.phu.mc - 1⟩ = false) →
      exec (.backwardCount jumped) s = .next { s with
        phu := { s.phu with mc := s.phu.mc - 1, lastDir := some .backward, quad := s.phu.quad.step .backward jumped,
                            sum := s.phu.sum - 1 } }) ∧
    (s.phu.phase = .unsynced →
      exec (.forwardCount jumped feed splice) s = .next { s with
        phu := { s.phu with mc := (s.phu.mc + 1) % s.phu.p, lastDir := some .forward,
                            quad := s.phu.quad.step .forward jumped, sum := s.phu.sum + 1 } } ∧
      exec (.backwardCount jumped) s = .next { s with
        phu := { s.phu with mc := (s.phu.mc + s.phu.p - 1) % s.phu.p, lastDir := some .backward,
                            quad := s.phu.quad.step .backward jumped, sum := s.phu.sum - 1 } }) ∧
    (s.phu.phase = .synced → s.phu.debt = 0 →
      (s.phu.mc + 1 < s.phu.p → ∃ ks : List ChanNum, ks.Nodup ∧
        (∀ k, k ∈ ks ↔ (s.chans.get k).atPoint s.phu.p ⟨s.phu.cycle, s.phu.mc + 1⟩ = true) ∧
        exec (.forwardCount jumped feed splice) s = .next { ks.foldl (State.pointEvent ⟨s.phu.cycle, s.phu.mc + 1⟩)
          { s with phu := { s.phu with mc := s.phu.mc + 1, lastDir := some .forward,
                                       quad := s.phu.quad.step .forward jumped, sum := s.phu.sum + 1 } }
          with frees := s.frees + 1 }) ∧
      (0 < s.phu.mc → ∃ ks : List ChanNum, ks.Nodup ∧
        (∀ k, k ∈ ks ↔ (s.chans.get k).state.phase = .on ∧
          (s.chans.get k).atPoint s.phu.p ⟨s.phu.cycle, s.phu.mc - 1⟩ = true) ∧
        exec (.backwardCount jumped) s = .next (ks.foldl (State.pointEvent ⟨s.phu.cycle, s.phu.mc - 1⟩)
          { s with phu := { s.phu with mc := s.phu.mc - 1, lastDir := some .backward,
                                       quad := s.phu.quad.step .backward jumped, sum := s.phu.sum - 1 } })) ∧
      (s.phu.mc + 1 = s.phu.p → ∃ early late : List ChanNum, (early ++ late).Nodup ∧
        (∀ k, k ∈ early ++ late ↔ (s.chans.get k).atPoint s.phu.p ⟨s.phu.cycle + 1, 0⟩ = true) ∧
        (∀ k ∈ early, (s.chans.get k).state.phase = .armed) ∧
        exec (.forwardCount jumped feed splice) s = .next { late.foldl (State.pointEvent ⟨s.phu.cycle + 1, 0⟩)
          ((early.foldl (State.pointEvent ⟨s.phu.cycle + 1, 0⟩)
            { s with phu := { s.phu with mc := 0, lastDir := some .forward, quad := s.phu.quad.step .forward jumped,
                                         sum := s.phu.sum + 1 } }).countMissing.advance feed splice)
          with frees := s.frees + 1 }))

/-- The table of the reverse debt rule, with the start and the end of inhibition. At the start every pulse is cut, in some
order, and its stamp reversed on its own record (a record's identity is the model's, log 9); a CLAIMED channel stays so
unless its even partner's cut applies a configuration that is not TIME_LONG (R102). Each channel keeps the target it dropped
or the cycle of the pulse cut. At the end a WAITING channel arms for the target of R92 or, where that lies before it, for
the cycle after the pulse cut, and at a repayment for the target dropped (R91; how the rules meet is inferred, log 30). -/
def Obligations.ReverseDebtTable : Prop :=
  ∀ (s : State) (jumped feed splice : Bool) (q : PortNum) (e : Event) (k : ChanNum) (ch : Channel) (released : Bool)
    (bounded : Word → Option Word → Word) (resumed : Bool → Count → Channel), s.phu.phase = .synced → s.phu.debt ≤ 15 →
    ch = s.chans.get k →
    bounded = (fun ct bound => match bound with
      | none => ct
      | some b => if (b - ct).toNat ≤ 2 then b else ct) →
    released = decide (∃ j : ChanNum, j.val % 2 = 0 ∧ k.val = j.val + 1 ∧ (s.chans.get j).state.pulse.isSome = true ∧
      ∃ c ∈ (s.chans.get j).pending, c.mode ≠ .timeLong) →
    resumed = (fun repaid x => match ch.state with
      | .waiting => { ch with
          due := none, dropped := none, cut := none
          state := .armed (ch.config.latchFor s.phu.p s.phu.speed (bounded
            (bounded (ch.config.latch s.phu.p s.phu.speed x).ct (ch.cut.map (· + 1))) (if repaid then ch.dropped else none))) }
      | _ => { ch with dropped := none, cut := none }) →
    (s.phu.mc = 0 → Completes (exec (.backwardCount jumped) s) fun t =>
      t.phu.cycle = s.phu.cycle ∧ t.phu.debt = (if s.phu.debt < 15 then s.phu.debt + 1 else 0) ∧
      t.requested q .reverse = (s.requested q .reverse || s.phu.debt == 0) ∧
      (s.phu.debt = 0 → (t.chans.get k).state.latch = none ∧ (t.chans.get k).due = none) ∧
      (0 < s.phu.debt → s.phu.debt < 15 → t = { s with
        phu := { s.phu with mc := s.phu.p - 1, debt := s.phu.debt + 1, lastDir := some .backward,
                            quad := s.phu.quad.step .backward jumped, sum := s.phu.sum - 1 } }) ∧
      (s.phu.debt = 15 →
        t = { s with
          phu := { s.phu with mc := s.phu.p - 1, debt := 0, lastDir := some .backward,
                              quad := s.phu.quad.step .backward jumped, sum := s.phu.sum - 1 }
          ttb := s.enterLost.ttb, chans := t.chans, events := t.events } ∧
        t.ttb.tracking = .lost ∧ t.requested q e = (s.requested q e || e == .lost) ∧
        (t.events.get q).enable = (s.events.get q).enable ∧
        t.chans.get k = resumed false ⟨s.phu.cycle, s.phu.p - 1⟩)) ∧
    (s.phu.mc = 0 → s.phu.debt = 0 → s.ChannelsOk → Completes (exec (.backwardCount jumped) s) fun t =>
      t = { s with
        phu := { s.phu with mc := s.phu.p - 1, debt := 1, lastDir := some .backward,
                            quad := s.phu.quad.step .backward jumped, sum := s.phu.sum - 1 }
        ttb := { s.ttb with slots := t.ttb.slots }, chans := t.chans, events := t.events, frees := s.frees + 1 } ∧
      t.chans.get k = { ch with
        due := none, pending := none
        config := if ch.state.pulse.isSome then ch.pending.getD ch.config else ch.config
        dropped := match ch.state with
          | .armed l => some l.ct
          | _ => ch.dropped
        cut := match ch.state with
          | .on l _ => some l.ct
          | .gap l _ => some l.ct
          | _ => ch.cut
        state := match ch.state with
          | .disabled => .disabled
          | .claimed => if released = true then .disabled else .claimed
          | _ => .waiting } ∧
      t.requested q e = (s.requested q e || e == .reverse ||
        (e == .channel && decide (∃ j, (s.chans.get j).state.pulse.isSome = true)) ||
        (e == .staged && decide (∃ j, (s.chans.get j).state.pulse.isSome = true ∧
          (s.chans.get j).pending.isSome = true))) ∧
      (t.events.get q).enable = (s.events.get q).enable ∧
      ∃ cuts : List ChanNum, cuts.Nodup ∧ (∀ j, j ∈ cuts ↔ (s.chans.get j).state.pulse.isSome = true) ∧
        ∀ y : Word, t.ttb.lookup y = (s.ttb.lookup y).map fun r => cuts.foldl (fun r j =>
          match (s.chans.get j).state.pulse with
          | none => r
          | some pulse => if pulse.gating = ⟨y, some r.birth⟩ then (match pulse.stamp with
              | none => r
              | some (.result f) => r.mergeResult f .fault
              | some (.route v) => { r with route := if r.route = v then .stream else r.route }) else r) r) ∧
    (s.phu.mc + 1 = s.phu.p → 0 < s.phu.debt → Completes (exec (.forwardCount jumped feed splice) s) fun t =>
      t = { s with
        phu := { s.phu with mc := 0, debt := s.phu.debt - 1, missing := min (s.phu.missing + 1) 2,
                            lastDir := some .forward, quad := s.phu.quad.step .forward jumped, sum := s.phu.sum + 1 }
        chans := t.chans, events := t.events } ∧
      t.requested q e = (s.requested q e || (e == .slip && s.phu.missing == 1)) ∧
      (t.events.get q).enable = (s.events.get q).enable ∧
      (1 < s.phu.debt → t.chans = s.chans) ∧ (s.phu.debt = 1 → t.chans.get k = resumed true ⟨s.phu.cycle, 0⟩)) ∧
    (s.phu.mc + 1 = s.phu.p → s.phu.debt = 0 → Completes (exec (.forwardCount jumped feed splice) s) fun t =>
      t.phu.cycle = s.phu.cycle + 1 ∧ t.phu.debt = 0 ∧ t.ttb.advances = s.ttb.advances + 1)

/-- The missing-index counter: every forward crossing adds one up to 2, SLIP marks the step from 1 to 2, a backward
crossing leaves it, a forward index edge returns it to 0; a missing index leaves the tracking state. -/
def Obligations.MissingIndexCounter : Prop :=
  ∀ (s : State) (jumped feed splice : Bool) (q : PortNum) (e : Event), s.phu.phase = .synced → s.phu.missing ≤ 2 →
    s.phu.mc < s.phu.p →
    s.countMissing = { s with
      phu := { s.phu with missing := min (s.phu.missing + 1) 2 }, events := s.countMissing.events } ∧
    s.countMissing.requested q e = (s.requested q e || (e == .slip && s.phu.missing == 1)) ∧
    (s.countMissing.events.get q).enable = (s.events.get q).enable ∧
    (s.phu.mc + 1 = s.phu.p → Completes (exec (.forwardCount jumped feed splice) s) fun t =>
      t.phu.missing = min (s.phu.missing + 1) 2 ∧ t.ttb.tracking = s.ttb.tracking ∧
      t.requested q .slip = (s.requested q .slip || s.phu.missing == 1)) ∧
    (s.phu.mc = 0 → Completes (exec (.backwardCount jumped) s) fun t =>
      t.phu.missing = s.phu.missing ∧ t.requested q .slip = s.requested q .slip) ∧
    (s.phu.lastDir = some .forward → Completes (exec (.indexEdge feed splice) s) fun t =>
      t.phu.missing = 0 ∧ (s.phu.p ≤ 2 * s.phu.mc → s.phu.missing = 1 → t.requested q .slip = true))

/-- An index edge without a forward direction is ignored; the first forward one makes the phase SYNCED, takes no crossing
and raises SYNC, and ends inhibition: each WAITING channel arms against the standing cycle at mc 0, with no due cycle, by
R92, but for no cycle up to that of a pulse cut at the start of the spell (R91; how the rules meet is inferred, log 30). -/
def Obligations.FirstIndexSynchronises : Prop :=
  ∀ (s : State) (feed splice : Bool) (q : PortNum) (e : Event) (k : ChanNum) (ch : Channel) (x : Count)
    (bounded : Word → Option Word → Word) (resumed : Channel), ch = s.chans.get k → x = ⟨s.phu.cycle, 0⟩ →
    bounded = (fun ct bound => match bound with
      | none => ct
      | some b => if (b - ct).toNat ≤ 2 then b else ct) →
    resumed = (match ch.state with
      | .waiting => { ch with
          due := none, dropped := none, cut := none
          state := .armed (ch.config.latchFor s.phu.p s.phu.speed
            (bounded (ch.config.latch s.phu.p s.phu.speed x).ct (ch.cut.map (· + 1)))) }
      | _ => { ch with dropped := none, cut := none }) →
    (s.phu.lastDir ≠ some .forward → exec (.indexEdge feed splice) s = .next s) ∧
    (s.phu.lastDir = some .forward → s.phu.phase = .unsynced → Completes (exec (.indexEdge feed splice) s) fun t =>
      t = { s with phu := { s.phu with mc := 0, phase := .synced, missing := 0 }, chans := t.chans, events := t.events } ∧
      t.requested q e = (s.requested q e || e == .sync) ∧ (t.events.get q).enable = (s.events.get q).enable ∧
      (s.phu.debt = 0 → t.chans.get k = resumed) ∧ (s.phu.debt ≠ 0 → t.chans = s.chans))

/-- A forward index edge while SYNCED: the signed distance, the crossing an early edge takes, and SLIP with LOST beyond
the tolerance. The channels whose points the step forward has reached take their events once the edge is whole
(`State.pointEvent`, which OnEventFiresOrSkips spells), in some order. An early edge that repays the last step of debt ends
inhibition as a forward crossing does (R8, R91; log 30). -/
def Obligations.IndexEdgeMeasuresDistance : Prop :=
  ∀ (s : State) (feed splice : Bool) (q : PortNum) (e : Event) (x : Word) (d : Int) (k : ChanNum) (ch : Channel)
    (bounded : Word → Option Word → Word) (resumed : Count → Channel), s.phu.phase = .synced →
    ch = s.chans.get k →
    bounded = (fun ct bound => match bound with
      | none => ct
      | some b => if (b - ct).toNat ≤ 2 then b else ct) →
    resumed = (fun x => match ch.state with
      | .waiting => { ch with
          due := none, dropped := none, cut := none
          state := .armed (ch.config.latchFor s.phu.p s.phu.speed (bounded
            (bounded (ch.config.latch s.phu.p s.phu.speed x).ct (ch.cut.map (· + 1))) (ch.dropped))) }
      | _ => { ch with dropped := none, cut := none }) →
    s.phu.lastDir = some .forward → d = (if 2 * s.phu.mc < s.phu.p then (s.phu.mc : Int) else s.phu.mc - s.phu.p) →
    Completes (exec (.indexEdge feed splice) s) fun t =>
      t.phu.mc = 0 ∧ t.phu.missing = 0 ∧
      (0 ≤ d → t.phu.cycle = s.phu.cycle ∧ t.phu.debt = s.phu.debt ∧ t.chans = s.chans) ∧
      (d < 0 → s.phu.debt = 0 → t.phu.cycle = s.phu.cycle + 1 ∧ t.phu.debt = 0 ∧
        (t.ttb.lookup (s.phu.cycle + 1)).isSome ∧
        ∃ ks : List ChanNum, ks.Nodup ∧
          (∀ k, k ∈ ks ↔ (s.chans.get k).atPoint s.phu.p ⟨s.phu.cycle + 1, 0⟩ = true) ∧
          ∀ crossed whole : State,
            crossed = (State.countMissing { s with phu := { s.phu with mc := 0 } }).advance feed splice →
            whole = (if (s.phu.t : Int) < |d| then (crossed.raise .slip).enterLost else crossed) →
            t = { ks.foldl (State.pointEvent ⟨s.phu.cycle + 1, 0⟩)
                { whole with phu := { whole.phu with missing := 0 } } with frees := s.frees + 1 }) ∧
      (d < 0 → 0 < s.phu.debt →
        t = { s with
          phu := { s.phu with mc := 0, debt := s.phu.debt - 1, missing := 0 }
          ttb := if (s.phu.t : Int) < |d| then s.enterLost.ttb else s.ttb
          chans := t.chans, events := t.events } ∧
        (1 < s.phu.debt → t.chans = s.chans) ∧ (s.phu.debt = 1 → t.chans.get k = resumed ⟨s.phu.cycle, 0⟩)) ∧
      (0 ≤ d ∨ 0 < s.phu.debt →
        t.requested q e = (s.requested q e || (e == .lost && decide ((s.phu.t : Int) < |d|)) ||
          (e == .slip && (decide ((s.phu.t : Int) < |d|) || (decide (d < 0) && s.phu.missing == 1)))) ∧
        (t.events.get q).enable = (s.events.get q).enable) ∧
      ((s.phu.t : Int) < |d| → t.requested q .slip = true ∧ t.requested q .lost = true ∧ t.ttb.tracking = .lost ∧
        (0 ≤ d → t = { s with
          phu := { s.phu with mc := 0, missing := 0 }, ttb := s.enterLost.ttb, events := t.events }) ∧
        ∀ r ∈ t.ttb.lookup x, r.place = .inLine → r.kind ≠ .void → r.reject.isSome) ∧
      (|d| ≤ (s.phu.t : Int) → t.ttb.tracking = s.ttb.tracking ∧
        (0 ≤ d → t = { s with phu := { s.phu with mc := 0, missing := 0 } }))

/-- At the end of a 1 ms window S is the sum of the four latest completed windows, clamped, and nothing else moves but
the time base. -/
def Obligations.SpeedSumsFourWindows : Prop :=
  ∀ (s : State) (a b c : Int), s.phu.windows.newest = a → s.phu.windows.second = b → s.phu.windows.third = c →
    Completes (exec .speedWindowEnd s) fun t =>
      t = { s with
        phu := { s.phu with sum := 0, windows := ⟨s.phu.sum, a, b, c⟩, speed := t.phu.speed }
        clock := { s.clock with window := 0 } } ∧
      (-32768 ≤ s.phu.sum + a + b + c → s.phu.sum + a + b + c ≤ 32767 → t.phu.speed = s.phu.sum + a + b + c) ∧
      (s.phu.sum + a + b + c < -32768 → t.phu.speed = -32768) ∧
      (32767 < s.phu.sum + a + b + c → t.phu.speed = 32767)

/-- The cycle number changes only at an advance, which only a forward count or an index edge can make, while SYNCED and
with no debt, and at a reset. -/
def Obligations.OnlyAdvancesMoveTheCycle : Prop :=
  ∀ (s : State) (c : Instr), Completes (exec c s) fun t =>
    (c.isReset = true → t.phu.cycle = 0) ∧
    (c.isReset = false → t.phu.cycle ≠ s.phu.cycle →
      c.movesLine = true ∧ s.phu.phase = .synced ∧ s.phu.debt = 0 ∧ t.phu.cycle = s.phu.cycle + 1 ∧
      t.ttb.advances = s.ttb.advances + 1 ∧ (t.ttb.lookup t.phu.cycle).any (fun r => r.place == .inLine) = true)

/-! ## The Tracking Table -/

/-- The advance event: the cycle number steps, the record at L departs with its fields, the record arriving at Kc is
classified, and the new record is created in the slot of the new cycle; nothing else is touched, and with no record to
classify neither are the batches nor the events. What the classification does to the batches, the events and the records is
`State.classify` of the record at Kc (ClassificationCounts, BatchClosesAtItsSize and JobTestClosesOrMixes spell it), taken
on the state `handed` in which the cycle number has stepped and the record at L has departed. `x` is any serial. -/
def Obligations.AdvanceMovesRecords : Prop :=
  ∀ (s : State) (feed splice : Bool) (x c : Word) (q : PortNum) (e : Event) (apart : Record → Record) (handed : State),
    s.ttb.l ≤ 48 → 1 ≤ s.ttb.kc → s.ttb.kc < s.ttb.l → c = s.phu.cycle + 1 →
    handed = { s with
      phu := { s.phu with cycle := c }
      ttb := match s.ttb.lookup (c - BitVec.ofNat 16 s.ttb.l) with
        | none => s.ttb
        | some r => { s.ttb with
            slots := s.ttb.slots.put (slotOf (c - BitVec.ofNat 16 s.ttb.l)) (some { r with place := .departed }) } } →
    apart = (fun r => { r with cls := .uncounted, batch := none, batchEnd := false }) →
    (slotOf x).val = x.toNat % 64 ∧
    s.ttb.lookup x = (match s.ttb.slots.get (slotOf x) with
      | none => none
      | some r => if r.serial = x then some r else none) ∧
    s.advance feed splice = { s with
      phu := { s.phu with cycle := c }
      ttb := { s.ttb with slots := (s.advance feed splice).ttb.slots, births := s.ttb.births + 1,
                          advances := s.ttb.advances + 1, feed := feed, splice := splice }
      bfu := (s.advance feed splice).bfu, events := (s.advance feed splice).events } ∧
    ((s.ttb.lookup (c - BitVec.ofNat 16 s.ttb.kc)).any (fun r => r.place == .inLine && r.kind != .void) = false →
      (s.advance feed splice).bfu = s.bfu ∧ (s.advance feed splice).events = s.events) ∧
    ((s.advance feed splice).events.get q).enable = (s.events.get q).enable ∧
    (e ∉ [Event.batch, .qhigh, .qfull, .job] → (s.advance feed splice).requested q e = s.requested q e) ∧
    (s.advance feed splice).ttb.lookup c = some
      { serial := c, birth := s.ttb.births, place := .inLine,
        kind := if feed then (if splice then .splice else .blank) else .void, job := s.bfu.cutJob,
        results := ⟨.none, .none, .none, .none, .none, .none⟩,
        reject := if feed then (if splice then some .splice else if s.ttb.tracking = .lost then some .lost else none)
          else none,
        further := feed && splice && s.ttb.tracking == .lost, hold := false, route := .stream, cls := .uncounted,
        batch := none, batchEnd := false, note := 0 } ∧
    (slotOf x = slotOf c → x ≠ c → (s.advance feed splice).ttb.lookup x = none) ∧
    (slotOf x ≠ slotOf c →
      ((s.advance feed splice).ttb.lookup x).map apart = (s.ttb.lookup x).map fun r =>
        apart (if x = c - BitVec.ofNat 16 s.ttb.l then { r with place := .departed } else r)) ∧
    (slotOf x ≠ slotOf c → x ≠ c - BitVec.ofNat 16 s.ttb.kc →
      ((s.advance feed splice).ttb.lookup x).map Record.cls = (s.ttb.lookup x).map Record.cls ∧
      ((s.advance feed splice).ttb.lookup x).map Record.batch = (s.ttb.lookup x).map Record.batch) ∧
    (x = c - BitVec.ofNat 16 s.ttb.kc → ∀ r ∈ s.ttb.lookup x, r.place = .inLine →
      ∀ r' ∈ (s.advance feed splice).ttb.lookup x, r'.cls ≠ .uncounted ∧ (r'.cls = .voidSkip ↔ r.kind = .void)) ∧
    (∀ r ∈ s.ttb.lookup (c - BitVec.ofNat 16 s.ttb.kc), r.place = .inLine →
      (s.advance feed splice).bfu = (handed.classify r).bfu ∧
      (s.advance feed splice).events = (handed.classify r).events ∧
      (slotOf x ≠ slotOf c → (s.advance feed splice).ttb.lookup x = (handed.classify r).ttb.lookup x)) ∧
    ((∀ r ∈ s.ttb.lookup (c - BitVec.ofNat 16 s.ttb.kc), r.place ≠ .inLine) → slotOf x ≠ slotOf c →
      (s.advance feed splice).ttb.lookup x = handed.ttb.lookup x)

/-- The result merge rule, whole: what is taken, the field after, and the reject a change to FAULT makes. The fields' codes
are those of Table 10-3. -/
def Obligations.ResultMergeRule : Prop :=
  ∀ (r : Record) (f g : ResultField) (v : Result),
    (v = .none → r.mergeResult f v = r ∧ (r.results.get f).takes v = false) ∧
    (v = .done → r.results.get f = .fault → r.mergeResult f v = r ∧ (r.results.get f).takes v = false) ∧
    (v = .done → r.results.get f ≠ .fault →
      (r.results.get f).takes v = true ∧ r.mergeResult f v = { r with results := r.results.set f .done }) ∧
    (v = .fault → r.results.get f = .fault → (r.results.get f).takes v = true ∧ r.mergeResult f v = r) ∧
    (v = .fault → r.results.get f ≠ .fault → (r.results.get f).takes v = true ∧
      r.mergeResult f v = { r with
        results := r.results.set f .fault
        reject := some (r.reject.getD (.fault f))
        further := r.further || r.reject.isSome }) ∧
    (r.results.set f v).get f = v ∧ (g ≠ f → (r.results.set f v).get g = r.results.get g) ∧
    r.results.get f = (match f with
      | .cut => r.results.cut | .win => r.results.win | .patch => r.results.patch | .gum => r.results.gum
      | .fold => r.results.fold | .inspect => r.results.inspect) ∧
    f.code = (match f with | .cut => 2 | .win => 3 | .patch => 4 | .gum => 5 | .fold => 6 | .inspect => 7)

/-- Entering LOST: every IN_LINE record that is not VOID is rejected with LOST, the others are not, and LOST is raised to
all ports. -/
def Obligations.LostMarksTheLine : Prop :=
  ∀ (s : State) (x : Word) (q : PortNum) (e : Event),
    s.enterLost = { s with ttb := s.enterLost.ttb, events := s.enterLost.events } ∧
    s.enterLost.ttb = { s.ttb with tracking := .lost, slots := s.enterLost.ttb.slots } ∧
    s.enterLost.requested q e = (s.requested q e || e == .lost) ∧
    (s.enterLost.events.get q).enable = (s.events.get q).enable ∧
    s.enterLost.ttb.lookup x = (s.ttb.lookup x).map fun r =>
      if r.place = .inLine ∧ r.kind ≠ .void then
        { r with reject := some (r.reject.getD .lost), further := r.further || r.reject.isSome }
      else r

/-- No command but SET_LINE and the resets takes a reject or a FAULT result off a record, or changes its job: as long as
the record stands in its slot it keeps them. -/
def Obligations.RecordMarksStay : Prop :=
  ∀ (s : State) (c : Instr) (x : Word) (f : ResultField), c.isReset = false →
    (∀ r ∈ s.ttb.lookup x, r.birth < s.ttb.births) →
    Completes (exec c s) fun t => ∀ r ∈ s.ttb.lookup x, ∀ r' ∈ t.ttb.lookup x, r'.birth = r.birth →
      (r.reject.isSome → r'.reject = r.reject) ∧ (r.further = true → r'.further = true) ∧
      (r.results.get f = .fault → r'.results.get f = .fault) ∧ r'.job = r.job

/-- PURGE, given with SETUP, makes the IN_LINE records below Kc VOID, changes nothing else of any record, and answers how
many were BLANK or SPLICE. -/
def Obligations.PurgeMakesVoid : Prop :=
  ∀ (s : State) (p : PortNum) (x : Word), s.bti ≠ .init → (s.ports.get p).privileges.setup = true →
    Completes (exec (.purge p) s) fun t =>
      t = { s.openWrite p with ttb := { s.ttb with slots := t.ttb.slots } }.answered p ⟨.ok, 0x20,
        [BitVec.ofNat 8 (s.ttb.holding fun r =>
          r.place == Place.inLine && decide ((s.phu.cycle - r.serial).toNat < s.ttb.kc) && r.kind != Kind.void)]⟩ ∧
      t.ttb.lookup x = (s.ttb.lookup x).map fun r =>
        if r.place = .inLine ∧ (s.phu.cycle - r.serial).toNat < s.ttb.kc then { r with kind := .void } else r

/-- REJECT_RANGE, given with SETUP: RANGE when a is greater than b, and otherwise the IN_LINE records not VOID from a to b,
both clamped to L-1, are rejected with RANGE and counted. -/
def Obligations.RejectRangeReaches : Prop :=
  ∀ (s : State) (p : PortNum) (a b : Byte) (x : Word) (reached : Record → Bool), s.bti = .code p →
    (s.ports.get p).privileges.setup = true →
    reached = (fun r => r.place == Place.inLine && r.kind != Kind.void &&
      decide (min a.toNat (s.ttb.l - 1) ≤ (s.phu.cycle - r.serial).toNat) &&
      decide ((s.phu.cycle - r.serial).toNat ≤ min b.toNat (s.ttb.l - 1))) →
    (b.toNat < a.toNat → exec (.rejectRange p a b) s = .next (s.answered p ⟨.range, 0x21, []⟩)) ∧
    (a.toNat ≤ b.toNat → Completes (exec (.rejectRange p a b) s) fun t =>
      t = { s with ttb := { s.ttb with slots := t.ttb.slots } }.answered p ⟨.ok, 0x21,
        [BitVec.ofNat 8 (s.ttb.holding reached)]⟩ ∧
      t.ttb.lookup x = (s.ttb.lookup x).map fun r =>
        if reached r = true then
          { r with reject := some (r.reject.getD .range), further := r.further || r.reject.isSome }
        else r)

/-- RESYNC, given with SETUP, returns the tracking state to READY and touches nothing else. -/
def Obligations.ResyncReturnsReady : Prop :=
  ∀ (s : State) (p : PortNum), s.bti ≠ .init → (s.ports.get p).privileges.setup = true →
    exec (.resync p) s
      = .next ({ s.openWrite p with ttb := { s.ttb with tracking := .ready } }.answered p ⟨.ok, 0x22, []⟩)

/-- SET_LINE, given with SETUP: RANGE for a bad operand or a channel beyond the new L, BUSY while the line moves or an
uncounted blank stands on it, and otherwise the line set anew. A changed P starts inhibition, whatever stood before
(inferred, log 26): every pulse is cut against the emptied table, each channel keeps the target dropped or the cycle of
the pulse cut (log 30), and each applied configuration is brought within the new P. That a pending configuration's
station position counts with the applied one's is inferred (log 28). -/
def Obligations.SetLineOutcomes : Prop :=
  ∀ (s : State) (p q : PortNum) (l kc t : Byte) (counts : Word) (k : ChanNum) (x : Word) (e : Event) (ch : Channel)
    (released : Bool) (within : Nat → Nat), s.bti ≠ .init →
    (s.ports.get p).privileges.setup = true → ch = s.chans.get k →
    released = decide (∃ j : ChanNum, j.val % 2 = 0 ∧ k.val = j.val + 1 ∧ (s.chans.get j).state.pulse.isSome = true ∧
      ∃ c ∈ (s.chans.get j).pending, c.mode ≠ .timeLong) →
    within = (fun n => if counts.toNat ≤ n then counts.toNat - 1 else n) →
    (l.toNat < 2 ∨ 48 < l.toNat ∨ kc.toNat < 1 ∨ l.toNat ≤ kc.toNat ∨ counts.toNat < 256 ∨ 16384 < counts.toNat ∨
        l.toNat ≤ (s.chans.get k).config.sp ∨ (∃ c ∈ (s.chans.get k).pending, l.toNat ≤ c.sp) →
      exec (.setLine p l kc counts t) s = .next ((s.openWrite p).answered p ⟨.range, 0x23, []⟩)) ∧
    (2 ≤ l.toNat → l.toNat ≤ 48 → 1 ≤ kc.toNat → kc.toNat < l.toNat → 256 ≤ counts.toNat → counts.toNat ≤ 16384 →
      (∀ j, (s.chans.get j).config.sp < l.toNat ∧ ∀ c ∈ (s.chans.get j).pending, c.sp < l.toNat) →
      (s.phu.speed ≠ 0 ∨ (∃ r ∈ s.ttb.lookup x, r.place = .inLine ∧ r.kind ≠ .void ∧ r.cls = .uncounted) →
        exec (.setLine p l kc counts t) s = .next ((s.openWrite p).answered p ⟨.busy, 0x23, []⟩)) ∧
      (s.phu.speed = 0 → (∀ i, ∀ r ∈ s.ttb.slots.get i, ¬ (r.place = .inLine ∧ r.kind ≠ .void ∧ r.cls = .uncounted)) →
        Completes (exec (.setLine p l kc counts t) s) fun u =>
          u = { s.openWrite p with
            phu := u.phu, chans := u.chans, events := u.events, frees := u.frees
            ttb := { s.ttb with l := l.toNat, kc := kc.toNat, slots := u.ttb.slots, advances := 0 } }.answered p
              ⟨.ok, 0x23, []⟩ ∧
          (∀ i, u.ttb.slots.get i = none) ∧ u.ttb.lookup x = none ∧
          (u.events.get q).enable = (s.events.get q).enable ∧
          (counts.toNat = s.phu.p → u.phu = { s.phu with t := min t.toNat 63 } ∧ u.chans = s.chans ∧
            u.events = s.events ∧ u.frees = s.frees) ∧
          (counts.toNat ≠ s.phu.p →
            u.phu = { s.phu with
              p := counts.toNat, t := min t.toNat 63, mc := 0, phase := .unsynced, debt := 0, missing := 0 } ∧
            u.frees = s.frees + 1 ∧
            (u.chans.get k).state.latch = none ∧ (u.chans.get k).due = none ∧
            (u.chans.get k).config.onAngle < counts.toNat ∧ (u.chans.get k).config.offAngle < counts.toNat ∧
            (u.chans.get k).config.leadLimit < counts.toNat ∧ (u.chans.get k).overruns = (s.chans.get k).overruns ∧
            (s.ChannelsOk →
              (∀ c : ChanConfig, c = (if ch.state.pulse.isSome then ch.pending.getD ch.config else ch.config) →
                u.chans.get k = { ch with
                  due := none, pending := none
                  config := { c with
                    onAngle := within c.onAngle, offAngle := within c.offAngle, leadLimit := within c.leadLimit }
                  dropped := match ch.state with
                    | .armed l => some l.ct
                    | _ => ch.dropped
                  cut := match ch.state with
                    | .on l _ => some l.ct
                    | .gap l _ => some l.ct
                    | _ => ch.cut
                  state := match ch.state with
                    | .disabled => .disabled
                    | .claimed => if released = true then .disabled else .claimed
                    | _ => .waiting }) ∧
              u.requested q e = (s.requested q e ||
                (e == .channel && decide (∃ j, (s.chans.get j).state.pulse.isSome = true)) ||
                (e == .staged && decide (∃ j, (s.chans.get j).state.pulse.isSome = true ∧
                  (s.chans.get j).pending.isSome = true)))))))

/-! ## Ports -/

/-- A command whose privilege the port lacks is a PRIVILEGE fault, whatever its operands and the port's fault record; for
PORT_RESET with a number above 7 that is inferred (log 23). The status of each kind of fault is the kind's own (R61). -/
def Obligations.PrivilegeLackIsFault : Prop :=
  ∀ (s : State) (c : Instr) (p : PortNum) (code : Byte), s.bti ≠ .init → c.port = some p →
    c.lacking (s.ports.get p).privileges = some (p, code) →
    Completes (exec c s) fun t =>
      s.Faulted p ⟨.privilege, code, none, none, none, ((s.openWrite p).ports.get p).reference⟩ t ∧
      (t.ports.get p).response = ⟨.privilege, code, []⟩ ∧
      FaultKind.privilege.status = .privilege ∧ FaultKind.access.status = .access ∧ FaultKind.window.status = .window ∧
      FaultKind.line.status = .line

/-- The checks of the four commands that name one record, in their order: frozen (writes), access, window, line. `write`
tells the two writes from the two reads; `byIndex` and `bySerial` are the two commands of that kind. -/
def Obligations.TableChecksRefuse : Prop :=
  ∀ (s : State) (p : PortNum) (i : Byte) (x : Word) (es : List RawEntry) (q : Port) (pos : Nat) (write : Bool)
    (byIndex bySerial : Instr) (code codeSer : Byte),
    s.bti ≠ .init → es.length ≤ 10 → q = (s.openWrite p).ports.get p → pos = (q.reference - x).toNat →
    byIndex = (if write then Instr.writeRec p i es else Instr.readRec p i) →
    bySerial = (if write then Instr.writeRecSer p x es else Instr.readRecSer p x) →
    code = (if write then 0x33 else 0x30) → codeSer = (if write then 0x34 else 0x31) →
    (write = true → q.fault ≠ .clear →
      exec byIndex s = .next ((s.openWrite p).answered p ⟨.frozen, code, []⟩) ∧
      exec bySerial s = .next ((s.openWrite p).answered p ⟨.frozen, codeSer, []⟩)) ∧
    ((write = true → q.fault = .clear) →
      (q.window.access = .none ∨ (write = true ∧ q.window.access ≠ .readWrite) →
        Completes (exec byIndex s) (s.Faulted p ⟨.access, code, some i.toNat, none, none, q.reference⟩) ∧
        Completes (exec bySerial s) (s.Faulted p ⟨.access, codeSer, none, none, some x, q.reference⟩)) ∧
      (q.window.access ≠ .none → (write = true → q.window.access = .readWrite) →
        (q.window.length ≤ i.toNat →
          Completes (exec byIndex s) (s.Faulted p ⟨.window, code, some i.toNat, none, none, q.reference⟩)) ∧
        (i.toNat < q.window.length → q.window.direction = .up → s.ttb.l ≤ q.window.base + i.toNat →
          Completes (exec byIndex s) (s.Faulted p ⟨.line, code, some i.toNat, some (q.window.base + i.toNat),
            some (q.reference - BitVec.ofNat 16 (q.window.base + i.toNat)), q.reference⟩)) ∧
        (i.toNat < q.window.length → q.window.direction = .down → q.window.base < i.toNat →
          Completes (exec byIndex s) (s.Faulted p ⟨.line, code, some i.toNat, none, none, q.reference⟩)) ∧
        (i.toNat < q.window.length → q.window.direction = .down → i.toNat ≤ q.window.base →
          s.ttb.l ≤ q.window.base - i.toNat →
          Completes (exec byIndex s) (s.Faulted p ⟨.line, code, some i.toNat, some (q.window.base - i.toNat),
            some (q.reference - BitVec.ofNat 16 (q.window.base - i.toNat)), q.reference⟩)) ∧
        (q.window.direction = .up → pos < q.window.base ∨ q.window.base + q.window.length ≤ pos →
          Completes (exec bySerial s) (s.Faulted p ⟨.window, codeSer, none, some pos, some x, q.reference⟩)) ∧
        (q.window.direction = .down → q.window.base < pos ∨ pos + q.window.length ≤ q.window.base →
          Completes (exec bySerial s) (s.Faulted p ⟨.window, codeSer, none, some pos, some x, q.reference⟩)) ∧
        (q.window.direction = .up → q.window.base ≤ pos → pos < q.window.base + q.window.length → s.ttb.l ≤ pos →
          Completes (exec bySerial s)
            (s.Faulted p ⟨.line, codeSer, some (pos - q.window.base), some pos, some x, q.reference⟩)) ∧
        (q.window.direction = .down → pos ≤ q.window.base → q.window.base < pos + q.window.length → s.ttb.l ≤ pos →
          Completes (exec bySerial s)
            (s.Faulted p ⟨.line, codeSer, some (q.window.base - pos), some pos, some x, q.reference⟩))))

/-- The two single reads reach the record that stood at the named place at the reference cycle, and answer UNKNOWN, LATE
or OK with the record as it stands. The twelve bytes of a record `h` are those of Table 10-5. -/
def Obligations.ReadsReachTheRecord : Prop :=
  ∀ (s : State) (p : PortNum) (i : Byte) (x : Word) (q : Port) (pos : Nat) (h : Record) (two : Nat → List Byte)
    (flag : Bool → Nat → Nat) (result : Result → Nat),
    two = (fun n => [BitVec.ofNat 8 (n / 256), BitVec.ofNat 8 n]) → flag = (fun b n => if b then n else 0) →
    result = (fun v => match v with | .none => 0 | .done => 1 | .fault => 2) →
    h.bytes = two h.serial.toNat
      ++ [BitVec.ofNat 8 (16 * (match h.place with | .inLine => 1 | .departed => 2)
            + (match h.kind with | .blank => 0 | .void => 1 | .splice => 2)),
          BitVec.ofNat 8 (16 * h.job.val + (match h.cls with
            | .uncounted => 0 | .good => 1 | .divertedReject => 2 | .passedReject => 3 | .sample => 4 | .voidSkip => 5))]
      ++ two (result h.results.cut + 4 * result h.results.win + 16 * result h.results.patch
            + 64 * result h.results.gum + 256 * result h.results.fold + 1024 * result h.results.inspect)
      ++ [BitVec.ofNat 8 (flag h.further 128 + (match h.reject with
            | none => 0 | some .splice => 1 | some (.fault .cut) => 2 | some (.fault .win) => 3
            | some (.fault .patch) => 4 | some (.fault .gum) => 5 | some (.fault .fold) => 6
            | some (.fault .inspect) => 7 | some (.port _ _) => 8 | some .lost => 9 | some .range => 10)),
          (match h.reject with | some (.port n c) => BitVec.ofNat 8 (16 * n.val + c.val) | _ => 0),
          BitVec.ofNat 8 ((match h.route with | .stream => 0 | .diverted => 1 | .sampled => 2)
            + flag h.hold 16 + flag h.batchEnd 32),
          h.note]
      ++ two (h.batch.getD 0).toNat ∧
    (s.bti ≠ .init → q = (s.openWrite p).ports.get p → pos = (q.reference - x).toNat → q.window.access ≠ .none →
    pos < s.ttb.l → i.toNat < q.window.length →
    (q.window.direction = .up → pos = q.window.base + i.toNat) →
    (q.window.direction = .down → pos + i.toNat = q.window.base) →
    ∀ c ∈ [Instr.readRec p i, Instr.readRecSer p x], ∀ code : Byte,
      code = (if c = Instr.readRec p i then 0x30 else 0x31) →
      (s.ttb.lookup x = none → exec c s = .next ((s.openWrite p).answered p
        ⟨.unknown, code, bytes16 x ++ bytes16 s.phu.cycle⟩)) ∧
      (∀ r ∈ s.ttb.lookup x, exec c s = .next ((s.openWrite p).answered p
        ⟨if r.place = .inLine then .ok else .late, code, bytes16 s.phu.cycle ++ bytes16 q.reference ++ r.bytes⟩)))

/-- READ_WINDOW: an ACCESS fault for access NONE; otherwise OK with one entry of twelve bytes for each local index, the
record found there or zeros. -/
def Obligations.WindowReadAnswers : Prop :=
  ∀ (s : State) (p : PortNum) (i : Nat) (q : Port), s.bti = .code p → q = s.ports.get p →
    (q.window.access = .none →
      Completes (exec (.readWindow p) s) (s.Faulted p ⟨.access, 0x32, none, none, none, q.reference⟩)) ∧
    (q.window.access ≠ .none → Completes (exec (.readWindow p) s) fun t =>
      t = s.answered p (t.ports.get p).response ∧ (t.ports.get p).response.status = .ok ∧
      (t.ports.get p).response.code = 0x32 ∧
      (t.ports.get p).response.payload.length = 5 + 12 * q.window.length ∧
      (t.ports.get p).response.payload.take 5
        = bytes16 s.phu.cycle ++ bytes16 q.reference ++ [BitVec.ofNat 8 q.window.length] ∧
      (i < q.window.length → ((t.ports.get p).response.payload.drop (5 + 12 * i)).take 12 =
        (match q.window.direction, decide (i ≤ q.window.base) with
          | .down, false => List.replicate 12 0
          | d, _ =>
            let pos := if d = .up then q.window.base + i else q.window.base - i
            match (if pos < s.ttb.l then s.ttb.lookup (q.reference - BitVec.ofNat 16 pos) else none) with
            | some r => r.bytes
            | none => List.replicate 12 0)))

/-- The two writes, once the checks have let them reach the serial `x`: UNKNOWN when no record has it, LATE for a DEPARTED
one; where its record `r` stands IN_LINE, RANGE for a malformed list, and otherwise each carried field in the mask is
applied by its own rule, in the order of R60, the rest is ignored, and the response says which. `carried n` is the value
the list carries for field code `n`. -/
def Obligations.WritesApplyFields : Prop :=
  ∀ (s : State) (p : PortNum) (i : Byte) (x y : Word) (es : List RawEntry) (q : Port) (pos : Nat) (r : Record)
    (carried : Nat → Option Byte) (inMask : Nat → Bool) (faults : List Reject),
    s.bti ≠ .init → q = (s.openWrite p).ports.get p → pos = (q.reference - x).toNat →
    q.window.access = .readWrite → q.fault = .clear → pos < s.ttb.l → i.toNat < q.window.length →
    (q.window.direction = .up → pos = q.window.base + i.toNat) →
    (q.window.direction = .down → pos + i.toNat = q.window.base) →
    es.length ≤ 10 →
    carried = (fun n => (es.find? fun e => e.field.toNat == n).map RawEntry.value) →
    inMask = (fun n => (carried n).isSome && q.mask.getLsbD n) →
    faults = (([ResultField.cut, .win, .patch, .gum, .fold, .inspect].filter fun f =>
      inMask f.code && carried f.code == some 2 && r.results.get f != .fault).map Reject.fault) →
    ∀ c ∈ [Instr.writeRec p i es, Instr.writeRecSer p x es], ∀ code : Byte,
      code = (if c = Instr.writeRec p i es then 0x33 else 0x34) →
      (s.ttb.lookup x = none → exec c s = .next ((s.openWrite p).answered p
        ⟨.unknown, code, bytes16 x ++ bytes16 s.phu.cycle⟩)) ∧
      (s.ttb.lookup x = some r → r.place = .departed → exec c s = .next ((s.openWrite p).answered p
        ⟨.late, code, bytes16 x ++ bytes16 s.phu.cycle⟩)) ∧
      (s.ttb.lookup x = some r → r.place = .inLine →
        ¬ ((es.map fun e => e.field.toNat).Nodup ∧
          ∀ e ∈ es, e.value.toNat < ([3, 16, 3, 3, 3, 3, 3, 3, 2, 256] : List Nat).getD e.field.toNat 0) →
        exec c s = .next ((s.openWrite p).answered p ⟨.range, code, bytes16 x ++ bytes16 s.phu.cycle⟩)) ∧
      (s.ttb.lookup x = some r → r.place = .inLine → (es.map fun e => e.field.toNat).Nodup →
        (∀ e ∈ es, e.value.toNat < ([3, 16, 3, 3, 3, 3, 3, 3, 2, 256] : List Nat).getD e.field.toNat 0) →
        ∀ belowKc : Bool, belowKc = decide ((s.phu.cycle - x).toNat < s.ttb.kc) →
        ∀ ruleIgnored : Nat → Bool, ruleIgnored = (fun n => inMask n && match n with
            | 0 => !belowKc
            | 2 => (r.results.get .cut == .fault && carried 2 == some 1) || carried 2 == some 0
            | 3 => (r.results.get .win == .fault && carried 3 == some 1) || carried 3 == some 0
            | 4 => (r.results.get .patch == .fault && carried 4 == some 1) || carried 4 == some 0
            | 5 => (r.results.get .gum == .fault && carried 5 == some 1) || carried 5 == some 0
            | 6 => (r.results.get .fold == .fault && carried 6 == some 1) || carried 6 == some 0
            | 7 => (r.results.get .inspect == .fault && carried 7 == some 1) || carried 7 == some 0
            | _ => false) →
        ∀ reasons : List Reject, reasons = r.reject.toList
          ++ (if inMask 0 && belowKc && carried 0 == some 2 then [.splice] else [])
          ++ (if inMask 0 && belowKc && carried 0 != some 1 && r.kind == .void && s.ttb.tracking == .lost
              then [.lost] else [])
          ++ (if inMask 1 then [.port p ⟨((carried 1).getD 0).toNat % 16, Nat.mod_lt _ (by decide)⟩] else [])
          ++ faults →
        Completes (exec c s) fun t =>
          t = { s.openWrite p with ttb := t.ttb }.answered p
            ⟨if es.all (fun e => inMask e.field.toNat && !ruleIgnored e.field.toNat) then .ok else .masked, code,
             bytes16 x ++ bytes16 s.phu.cycle
              ++ fieldSet (fun n => (carried n).isSome && !q.mask.getLsbD n) ++ fieldSet ruleIgnored⟩ ∧
          t.ttb = { s.ttb with slots := t.ttb.slots } ∧
          (y ≠ x → t.ttb.lookup y = s.ttb.lookup y) ∧
          t.ttb.lookup x = some { r with
            kind := if inMask 0 && belowKc then
                (if carried 0 = some 0 then .blank else if carried 0 = some 1 then .void else .splice)
              else r.kind
            results := ([ResultField.cut, .win, .patch, .gum, .fold, .inspect]).foldl (fun acc f =>
              if inMask f.code && !ruleIgnored f.code then
                acc.set f (if carried f.code = some 1 then .done else .fault) else acc) r.results
            reject := reasons.head?
            further := r.further || decide (1 < reasons.length)
            hold := if inMask 8 then carried 8 == some 1 else r.hold
            note := if inMask 9 then (carried 9).getD 0 else r.note })

/-- SET_PORT, given with SETUP: RANGE for each operand out of its range, with nothing stored; otherwise the target's
privileges, window and mask, and nothing else of it, are replaced. -/
def Obligations.SetPortConfigures : Prop :=
  ∀ (s : State) (p : PortNum) (target pr base length da : Byte) (mask : Word) (good : Bool), s.bti ≠ .init →
    (s.ports.get p).privileges.setup = true →
    good = (decide (target.toNat ≤ 7) && decide (pr.toNat ≤ 3) && decide (base.toNat ≤ 47) &&
      decide (1 ≤ length.toNat) && decide (length.toNat ≤ 16) && decide (da.toNat ≤ 7) && decide (da.toNat % 4 ≤ 2) &&
      decide (mask.toNat < 1024)) →
    (good = false → exec (.setPort p target pr base length da mask) s
      = .next ((s.openWrite p).answered p ⟨.range, 0x40, []⟩)) ∧
    (good = true → ∀ u : PortNum, u.val = target.toNat →
      exec (.setPort p target pr base length da mask) s = .next ({ s.openWrite p with
        ports := (s.openWrite p).ports.modify u fun q => { q with
          privileges := ⟨pr.getLsbD 0, pr.getLsbD 1⟩
          window := ⟨base.toNat, length.toNat, if da.getLsbD 2 then .down else .up,
            if da.toNat % 4 = 0 then .none else if da.toNat % 4 = 1 then .read else .readWrite⟩
          mask := mask.setWidth 10 } }.answered p ⟨.ok, 0x40, []⟩))

/-- READ_PORT, READ_FAULT and CLEAR_FAULT need no privilege; the first two change nothing but the issuing port's buffer
and refuse a port above 7; CLEAR_FAULT clears the issuing port's fault record and leaves its FAULT request. That READ_FAULT
of a CLEAR record sends 0 in every part is inferred (log 24). -/
def Obligations.PortReadersAndClearFault : Prop :=
  ∀ (s : State) (p : PortNum) (target : Byte), s.bti = .code p →
    (7 < target.toNat →
      exec (.readPort p target) s = .next (s.answered p ⟨.range, 0x41, []⟩) ∧
      exec (.readFault p target) s = .next (s.answered p ⟨.range, 0x42, []⟩)) ∧
    (∀ u : PortNum, u.val = target.toNat → ∀ q : Port, q = s.ports.get u →
      exec (.readPort p target) s = .next (s.answered p ⟨.ok, 0x41,
        [target, BitVec.ofNat 8 ((if q.privileges.setup then 1 else 0) + (if q.privileges.batch then 2 else 0)),
         BitVec.ofNat 8 q.window.base, BitVec.ofNat 8 q.window.length,
         BitVec.ofNat 8 ((match q.window.access with | .none => 0 | .read => 1 | .readWrite => 2)
           + (if q.window.direction = .down then 4 else 0))]
          ++ fieldSet (fun n => q.mask.getLsbD n) ++ [if q.fault = .clear then 0 else 1]⟩) ∧
      exec (.readFault p target) s = .next (s.answered p ⟨.ok, 0x42,
        target :: match q.fault with
          | .clear => [0, 0, 0, 0, 0, 0, 0, 0, 0, 0, 0]
          | .frozen more f => [(if more then 3 else 1 : Byte),
              (match f.kind with | .privilege => 1 | .access => 2 | .window => 3 | .line => 4 : Byte), f.code,
              BitVec.ofNat 8 ((if f.index.isSome then 1 else 0) + (if f.position.isSome then 2 else 0)
                + (if f.serial.isSome then 4 else 0)), BitVec.ofNat 8 (f.index.getD 0)]
              ++ bytes16 (BitVec.ofNat 16 (f.position.getD 0)) ++ bytes16 (f.serial.getD 0) ++ bytes16 f.reference⟩)) ∧
    exec (.clearFault p) s = .next ({ s with
      ports := s.ports.modify p fun q => { q with fault := .clear } }.answered p ⟨.ok, 0x43, []⟩)

/-- PORT_RESET: the named port's buffer, fault record, event sets and snapshot, and nothing else; a port that resets
itself is left with NONE and needs no privilege, one that resets another needs SETUP and has OK. -/
def Obligations.PortResetClearsThePort : Prop :=
  ∀ (s : State) (p u v : PortNum) (target : Byte) (setup : Bool), s.bti = .code p →
    (s.ports.get p).privileges.setup = setup →
    (setup = false → target.toNat ≠ p.val → target.toNat ≤ 7 → Completes (exec (.portReset p target) s)
      (s.Faulted p ⟨.privilege, 0x44, none, none, none, (s.ports.get p).reference⟩)) ∧
    (u = p ∨ setup = true → u.val = target.toNat → Completes (exec (.portReset p target) s) fun t =>
      t = { s with
        phu := { s.phu with snapshots := t.phu.snapshots }, ports := t.ports, events := t.events, bti := .idle } ∧
      t.phu.snapshots.get u = none ∧ (v ≠ u → t.phu.snapshots.get v = s.phu.snapshots.get v) ∧
      t.events.get u = ⟨0, 0⟩ ∧ t.attn u = false ∧ (v ≠ u → t.events.get v = s.events.get v) ∧
      t.ports.get u = { s.ports.get u with fault := .clear, response := ⟨.nothing, 0, []⟩ } ∧
      (u ≠ p → t.ports.get p = { s.ports.get p with response := ⟨.ok, 0x44, []⟩ }) ∧
      (v ≠ u → v ≠ p → t.ports.get v = s.ports.get v)) ∧
    (7 < target.toNat → setup = true →
      exec (.portReset p target) s = .next (s.answered p ⟨.range, 0x44, []⟩))

/-- The ports are kept apart: a command of port `p` leaves every other port's configuration, reference cycle, fault
record, buffer and snapshot, and both its event sets but for events raised to all ports, unless it names that port. -/
def Obligations.PortsKeptApart : Prop :=
  ∀ (s : State) (c : Instr) (p q : PortNum) (e : Event), c.port = some p → q ≠ p →
    (∀ b ∈ c.namesPort, b.toNat ≠ q.val) →
    Completes (exec c s) fun t =>
      t.ports.get q = s.ports.get q ∧ t.phu.snapshots.get q = s.phu.snapshots.get q ∧
      (t.events.get q).enable = (s.events.get q).enable ∧
      (s.requested q e = true → t.requested q e = true) ∧ t.requested q .fault = s.requested q .fault

/-! ## Channels -/

/-- The lead: the count covered in the latency at the speed of the arming, to the nearest count with a half rounded up,
nothing for a stopped or backward line, and never above the lead limit. -/
def Obligations.LeadCoversTheLatency : Prop :=
  ∀ (c : ChanConfig) (p : Nat) (speed : Int) (x : Count) (lat lead : Nat),
    lat = c.latencyOn ∧ lead = (c.latch p speed x).onLead ∨ lat = c.latencyOff ∧ lead = (c.latch p speed x).offLead →
    lead ≤ c.leadLimit ∧ (speed ≤ 0 → lead = 0) ∧
    (0 < speed → lead < c.leadLimit →
      4000 * (lead : Int) ≤ speed * lat + 2000 ∧ speed * lat + 2000 < 4000 * ((lead : Int) + 1)) ∧
    (0 < speed → lead = c.leadLimit → 4000 * (lead : Int) ≤ speed * lat + 2000)

/-- The target cycle is the earliest whose compensated on point lies after the count of the arming, at most two cycles
on, and the point latched is that cycle's, so that it is not yet reached. The point latched for any cycle `y` is the on
angle in it less the on lead, which depends on the speed and not on the cycle. A channel is at a point (`Channel.atPoint`)
when it waits for one, an ARMED channel for its on point and one in ON for the off point it may have, and the count minus
that point is 0 or positive as a signed number modulo 65,536 P; that exactly half of that counts as negative is inferred
(log 25). -/
def Obligations.TargetIsTheEarliest : Prop :=
  ∀ (c : ChanConfig) (p : Nat) (speed : Int) (x : Count) (r : Int) (l : Latch) (y : Word) (ch : Channel)
    (reached : Nat → Bool), 256 ≤ p → p ≤ 16384 →
    reached = (fun point : Nat =>
      decide (2 * (((x.cycle.toNat : Int) * p + x.mc - point) % (65536 * p)) < 65536 * p)) →
    (∀ point, x.reached p point = reached point) ∧
    ch.atPoint p x = (match ch.state with
      | .armed latched => reached latched.aOn
      | .on latched _ => (match latched.aOff with
        | none => false
        | some off => reached off)
      | _ => false) ∧
    (x.mc < p → c.onAngle < p → c.leadLimit < p → l = c.latch p speed x → r = (c.onAngle : Int) - l.onLead →
      l = c.latchFor p speed l.ct ∧ (c.latchFor p speed y).ct = y ∧ (c.latchFor p speed y).onLead = l.onLead ∧
      (c.latchFor p speed y).offLead = l.offLead ∧
      ((c.latchFor p speed y).aOn : Int) = ((y.toNat : Int) * p + r) % (65536 * p) ∧
      ∃ n : Fin 3, l.ct = x.cycle + BitVec.ofNat 16 n.val ∧
        (x.mc : Int) < n.val * p + r ∧ (n.val = 0 ∨ ((n.val : Int) - 1) * p + r ≤ x.mc) ∧
        (l.aOn : Int) = (((x.cycle.toNat : Int) + n.val) * p + r) % (65536 * p) ∧ reached l.aOn = false)

/-- The off point of an ANGLE pulse: the off angle less the off lead, a cycle later when the off angle is not greater than
the on angle, and at least one count after the on point; no other mode latches one. The same of the points of any cycle `y`. -/
def Obligations.OffPointFollowsOnPoint : Prop :=
  ∀ (c : ChanConfig) (p : Nat) (speed : Int) (x : Count) (n : Nat) (l : Latch) (on off : Int) (y : Word), 256 ≤ p → x.mc < p →
    n ≤ 2 → l = c.latch p speed x → l.ct = x.cycle + BitVec.ofNat 16 n →
    on = ((x.cycle.toNat : Int) + n) * p + c.onAngle - l.onLead →
    off = ((x.cycle.toNat : Int) + n) * p + c.offAngle - l.offLead + (if c.offAngle ≤ c.onAngle then (p : Int) else 0) →
    (c.mode ≠ .angle → l.aOff = none ∧ (c.latchFor p speed y).aOff = none) ∧
    (c.mode = .angle → l.aOff = some ((max off (on + 1)) % (65536 * (p : Int))).toNat ∧
      (c.latchFor p speed y).aOff = some ((max ((y.toNat : Int) * p + c.offAngle - l.offLead
          + (if c.offAngle ≤ c.onAngle then (p : Int) else 0)) ((y.toNat : Int) * p + c.onAngle - l.onLead + 1))
        % (65536 * (p : Int))).toNat)

/-- What a channel does at a point it has reached. The on event of an ARMED channel, with its configuration `c`, the gating
record `found` and the gate's condition `passes` as Table 5-2 gives it; the pulse that begins keeps the latch, the gating
serial with the identity of the record found (the model's, log 9), the stamp it applied, and in DOTS the dots to come. And
the off event of an ANGLE pulse, at which the stamp stays, the pending configuration is applied with STAGED, and the
channel arms. A target that passes the due cycle is one overrun more and raises CHANNEL (`passed`). -/
def Obligations.OnEventFiresOrSkips : Prop :=
  ∀ (s : State) (k j : ChanNum) (l : Latch) (x : Count) (y : Word) (q : PortNum) (e : Event) (pulse : Pulse) (ch : Channel)
    (c next : ChanConfig) (found : Option Record) (passes : Bool) (stamp : Option Stamp) (passed : Latch → Bool),
    ch = s.chans.get k → c = ch.config → found = s.ttb.lookup (l.ct - BitVec.ofNat 16 c.sp) →
    passes = (match c.gate, found with
      | .always, _ => true
      | _, none => false
      | .present, some r => decide (r.kind = .blank ∧ r.reject = none)
      | .presentAfter f, some r => decide (r.kind = .blank ∧ r.reject = none ∧ r.results.get f = .done)
      | .rejected, some r => decide ((r.kind = .blank ∨ r.kind = .splice) ∧ r.reject ≠ none)
      | .sample, some r => decide (r.hold = true ∧ r.reject = none ∧ r.kind ≠ .void)
      | .batchEnd, some r => r.batchEnd) →
    stamp = (match c.gate, c.stamp with
      | .present, some f => some (.result f)
      | .presentAfter _, some f => some (.result f)
      | .rejected, _ => some (.route .diverted)
      | .sample, _ => some (.route .sampled)
      | _, _ => none) →
    next = ch.pending.getD c → passed = (fun new => decide (0 < (new.ct - (l.ct + 1)).toInt)) →
    (ch.state = .armed l → State.pointEvent x s k = s.onEvent k l x) ∧
    (ch.state = .on l pulse → State.pointEvent x s k = s.endPulse k l x) ∧
    (s.phu.speed < c.minSpeed ∨ passes = false → ∀ new : Latch, new = c.latch s.phu.p s.phu.speed x →
      s.onEvent k l x = { s with
        chans := s.chans.put k { ch with
          due := some (l.ct + 1), state := .armed new
          overruns := if passed new = true then min (ch.overruns + 1) 65535 else ch.overruns }
        events := (s.onEvent k l x).events } ∧
      (s.onEvent k l x).requested q e = (s.requested q e || (e == .channel && passed new)) ∧
      ((s.onEvent k l x).events.get q).enable = (s.events.get q).enable) ∧
    ((c.minSpeed : Int) ≤ s.phu.speed → passes = true →
      s.onEvent k l x = { s with
        ttb := { s.ttb with slots := (s.onEvent k l x).ttb.slots }
        chans := s.chans.put k { ch with
          due := some (l.ct + 1)
          state := .on l {
            gating := ⟨l.ct - BitVec.ofNat 16 c.sp, found.map Record.birth⟩
            stamp := stamp
            dots := if c.mode = .dots then c.dotCount - 1 else 0
            timer := match c.mode with
              | .angle => none
              | .time => some ⟨c.duration, 20 * c.duration⟩
              | .timeLong => some ⟨c.longDuration, 20 * c.longDuration⟩
              | .dots => some ⟨c.dot, 20 * c.dot⟩ } } } ∧
      (s.onEvent k l x).out k = true ∧
      (s.onEvent k l x).ttb.lookup y = (s.ttb.lookup y).map fun r =>
        if y = l.ct - BitVec.ofNat 16 c.sp then (match stamp with
          | some (.result f) => r.mergeResult f .done
          | some (.route v) => { r with route := v }
          | none => r) else r) ∧
    (∀ new : Latch, new = next.latch s.phu.p s.phu.speed x →
      s.endPulse k l x = { s with chans := (s.endPulse k l x).chans, events := (s.endPulse k l x).events } ∧
      (s.endPulse k l x).chans.get k = { ch with
        config := next, pending := none, due := some (l.ct + 1), state := .armed new
        overruns := if passed new = true then min (ch.overruns + 1) 65535 else ch.overruns } ∧
      (j ≠ k → (k.val % 2 = 0 → j.val = k.val + 1 → ch.pending = none) →
        (s.endPulse k l x).chans.get j = s.chans.get j) ∧
      (k.val % 2 = 0 → j.val = k.val + 1 → ch.pending.isSome →
        ((s.chans.get j).state = .claimed → (s.endPulse k l x).chans.get j
          = { s.chans.get j with state := if next.mode = .timeLong then .claimed else .disabled }) ∧
        ((s.chans.get j).state ≠ .claimed → next.mode ≠ .timeLong →
          (s.endPulse k l x).chans.get j = s.chans.get j)) ∧
      (s.endPulse k l x).out k = false ∧
      (s.endPulse k l x).requested q e = (s.requested q e || (e == .staged && ch.pending.isSome) ||
        (e == .channel && passed new)) ∧
      ((s.endPulse k l x).events.get q).enable = (s.events.get q).enable)

/-- TIMER_EXPIRY: an idle timer has none; in DOTS a dot with dots to come is followed by a gap and a gap by the next dot;
otherwise the pulse ends: the pending configuration is applied with STAGED, and the channel arms, one overrun more with
CHANNEL where its target passes the due cycle; of the other channels only the odd partner of an even one follows (R102).
That the row changes nothing on an idle timer, and ends a running one at once, is the model's choice (log 8). First, what a
channel's state says: the output is active exactly in ON, so not in a GAP, and while it is ON or GAP the channel has a pulse
and its timer. -/
def Obligations.TimerExpiryEndsOrContinues : Prop :=
  ∀ (s : State) (k j : ChanNum) (ch : Channel) (q : PortNum) (e : Event) (l : Latch) (pulse : Pulse) (next : ChanConfig)
    (new : Latch) (passed : Bool), ch = s.chans.get k → next = ch.pending.getD ch.config →
    new = next.latch s.phu.p s.phu.speed ⟨s.phu.cycle, s.phu.mc⟩ → passed = decide (0 < (new.ct - (l.ct + 1)).toInt) →
    s.out j = (match (s.chans.get j).state with
      | .on _ _ => true
      | _ => false) ∧
    ch.state.phase = (match ch.state with
      | .disabled => .disabled | .waiting => .waiting | .armed _ => .armed | .on _ _ => .on | .gap _ _ => .gap
      | .claimed => .claimed) ∧
    ch.state.pulse = (match ch.state with
      | .on _ p => some p | .gap _ p => some p | _ => none) ∧
    ch.state.latch = (match ch.state with
      | .armed x => some x | .on x _ => some x | .gap x _ => some x | _ => none) ∧
    ch.state.timer = (match ch.state with
      | .on _ p => p.timer | .gap _ p => p.timer | _ => none) ∧
    (ch.state.timer = none → exec (.timerExpiry k) s = .next s) ∧
    (pulse.timer.isSome →
      (ch.state = .on l pulse → 0 < pulse.dots → exec (.timerExpiry k) s = .next { s with
        chans := s.chans.put k { ch with
          state := .gap l { pulse with timer := some ⟨ch.config.gap, 20 * ch.config.gap⟩ } } }) ∧
      (ch.state = .gap l pulse → exec (.timerExpiry k) s = .next { s with
        chans := s.chans.put k { ch with
          state := .on l { pulse with dots := pulse.dots - 1, timer := some ⟨ch.config.dot, 20 * ch.config.dot⟩ } } }) ∧
      (ch.state = .on l pulse → pulse.dots = 0 → Completes (exec (.timerExpiry k) s) fun t =>
        t = { s with chans := t.chans, events := t.events } ∧
        t.chans.get k = { ch with
          config := next, pending := none, due := some (l.ct + 1), state := .armed new
          overruns := if passed = true then min (ch.overruns + 1) 65535 else ch.overruns } ∧
        (j ≠ k → (k.val % 2 = 0 → j.val = k.val + 1 → ch.pending = none) → t.chans.get j = s.chans.get j) ∧
        (k.val % 2 = 0 → j.val = k.val + 1 → ch.pending.isSome →
          ((s.chans.get j).state = .claimed →
            t.chans.get j = { s.chans.get j with state := if next.mode = .timeLong then .claimed else .disabled }) ∧
          ((s.chans.get j).state ≠ .claimed → next.mode ≠ .timeLong → t.chans.get j = s.chans.get j)) ∧
        t.out k = false ∧
        t.requested q e = (s.requested q e || (e == .staged && ch.pending.isSome) || (e == .channel && passed)) ∧
        (t.events.get q).enable = (s.events.get q).enable))

/-- DISABLE_CHANNEL, given with SETUP: a CLAIMED or DISABLED channel is left, a WAITING or ARMED one becomes DISABLED, and
a pulse is cut: its stamp reversed on the record it was taken from and no other, CHANNEL raised, the pending configuration
applied. What a record's identity is (`birth`, log 9), and that the command leaves what a channel keeps of a spell of
inhibition (`dropped` and `cut`, log 30), are the model's choice. -/
def Obligations.DisableCutsThePulse : Prop :=
  ∀ (s : State) (p q : PortNum) (k j : ChanNum) (b : Byte) (ch : Channel) (y : Word) (e : Event), s.bti = .code p →
    (s.ports.get p).privileges.setup = true → ch = s.chans.get k →
    (15 < b.toNat → exec (.disableChannel p b) s = .next (s.answered p ⟨.range, 0x52, []⟩)) ∧
    (b.toNat = k.val →
      (ch.state = .disabled → exec (.disableChannel p b) s = .next (s.answered p ⟨.ok, 0x52, [0]⟩)) ∧
      (ch.state = .claimed → exec (.disableChannel p b) s = .next (s.answered p ⟨.ok, 0x52, [5]⟩)) ∧
      (ch.state.phase = .waiting ∨ ch.state.phase = .armed → exec (.disableChannel p b) s = .next ({ s with
        chans := s.chans.put k { ch with state := .disabled, due := none } }.answered p ⟨.ok, 0x52, [0]⟩)) ∧
      (∀ pulse ∈ ch.state.pulse, Completes (exec (.disableChannel p b) s) fun t =>
        t = { s with ttb := { s.ttb with slots := t.ttb.slots }, chans := t.chans, events := t.events }.answered p
          ⟨.ok, 0x52, [0]⟩ ∧
        t.chans.get k = { ch with
          state := .disabled, due := none, config := ch.pending.getD ch.config, pending := none } ∧
        (j ≠ k → (k.val % 2 = 0 → j.val = k.val + 1 → ch.pending = none) → t.chans.get j = s.chans.get j) ∧
        (k.val % 2 = 0 → j.val = k.val + 1 → ch.pending.isSome →
          ((s.chans.get j).state = .claimed → t.chans.get j = { s.chans.get j with
            state := if (ch.pending.getD ch.config).mode = .timeLong then .claimed else .disabled }) ∧
          ((s.chans.get j).state ≠ .claimed → (ch.pending.getD ch.config).mode ≠ .timeLong →
            t.chans.get j = s.chans.get j)) ∧
        t.requested q e = (s.requested q e || e == .channel || (e == .staged && ch.pending.isSome)) ∧
        (t.events.get q).enable = (s.events.get q).enable ∧
        (pulse.stamp = none → t.ttb = s.ttb) ∧
        (y ≠ pulse.gating.serial → t.ttb.lookup y = s.ttb.lookup y) ∧
        (s.ttb.lookup pulse.gating.serial = none → t.ttb = s.ttb) ∧
        (∀ r ∈ s.ttb.lookup pulse.gating.serial, pulse.gating.birth ≠ some r.birth → t.ttb = s.ttb) ∧
        (∀ r ∈ s.ttb.lookup pulse.gating.serial, pulse.gating.birth = some r.birth →
          (∀ f, pulse.stamp = some (.result f) →
            t.ttb.lookup pulse.gating.serial = some (r.mergeResult f .fault)) ∧
          (∀ v, pulse.stamp = some (.route v) → t.ttb.lookup pulse.gating.serial
            = some { r with route := if r.route = v then .stream else r.route }))))

/-- SET_CHANNEL, given with SETUP, with a configuration `c` that its bytes name: BUSY for a CLAIMED channel or a partner
in use, and otherwise by the channel's state applied at once, armed anew (one overrun more with CHANNEL where the target
passes the one replaced), or held pending; the odd partner of an even channel follows, and nothing else changes. That the
command leaves what a channel keeps of a spell of inhibition (`dropped` and `cut`) is the model's choice (log 30). -/
def Obligations.SetChannelActsByState : Prop :=
  ∀ (s : State) (p q : PortNum) (k j : ChanNum) (b : Byte) (raw : RawConfig) (e : Event) (ch : Channel) (c : ChanConfig)
    (new : Latch) (passed : Latch → Bool), s.bti = .code p →
    (s.ports.get p).privileges.setup = true → ch = s.chans.get k → new = c.latch s.phu.p s.phu.speed ⟨s.phu.cycle, s.phu.mc⟩ →
    passed = (fun l => decide (0 < (new.ct - l.ct).toInt)) →
    (partnerOf k).val = 2 * (k.val / 2) + 1 ∧
    (15 < b.toNat → exec (.setChannel p b raw) s = .next (s.answered p ⟨.range, 0x50, []⟩)) ∧
    (b.toNat = k.val →
      (namedConfig s.ttb.l s.phu.p (k.val % 2 == 1) raw = none →
        exec (.setChannel p b raw) s = .next (s.answered p ⟨.range, 0x50, []⟩)) ∧
      (namedConfig s.ttb.l s.phu.p (k.val % 2 == 1) raw = some c →
        (ch.state = .claimed ∨ c.mode = .timeLong ∧ (s.chans.get (partnerOf k)).state ≠ .disabled ∧
            (s.chans.get (partnerOf k)).state ≠ .claimed →
          exec (.setChannel p b raw) s = .next (s.answered p ⟨.busy, 0x50, []⟩)) ∧
        (ch.state ≠ .claimed →
          (c.mode = .timeLong → (s.chans.get (partnerOf k)).state = .disabled ∨
            (s.chans.get (partnerOf k)).state = .claimed) →
          Completes (exec (.setChannel p b raw) s) fun t =>
            t = { s with chans := t.chans, events := t.events }.answered p
              ⟨.ok, 0x50, [if ch.state.pulse.isSome then 1 else 0]⟩ ∧
            t.chans.get k = (match ch.state with
              | .on _ _ => { ch with pending := some c }
              | .gap _ _ => { ch with pending := some c }
              | .armed l => { ch with
                  config := c, pending := none, due := some l.ct, state := .armed new
                  overruns := if passed l = true then min (ch.overruns + 1) 65535 else ch.overruns }
              | _ => { ch with config := c, pending := none }) ∧
            t.requested q e = (s.requested q e || (e == .channel && (match ch.state with
              | .armed l => passed l
              | _ => false))) ∧
            (t.events.get q).enable = (s.events.get q).enable ∧
            (j ≠ k → (k.val % 2 = 0 → j.val ≠ k.val + 1) → t.chans.get j = s.chans.get j) ∧
            (k.val % 2 = 0 → j.val = k.val + 1 → t.chans.get j = { s.chans.get j with
              state := if c.mode = .timeLong ∨ (ch.state.pulse.isSome ∧ ch.config.mode = .timeLong) then .claimed
                else if (s.chans.get j).state = .claimed then .disabled else (s.chans.get j).state }))))

/-- Which SET_CHANNEL configurations are refused with RANGE, and what is clamped in the others. -/
def Obligations.ConfigurationsAreChecked : Prop :=
  ∀ (l p : Nat) (odd : Bool) (raw : RawConfig) (fields : List ResultField), 1 ≤ p →
    fields = [.cut, .win, .patch, .gum, .fold, .inspect] →
    ((namedConfig l p odd raw).isSome ↔
      raw.sp.toNat < l ∧ raw.onAngle.toNat < p ∧ raw.minSpeed.toNat ≤ 32767 ∧ raw.gate.toNat ≤ 5 ∧
      (raw.gate.toNat = 2 → 2 ≤ raw.gateField.toNat ∧ raw.gateField.toNat ≤ 7) ∧
      (raw.stamp ≠ 0xFF → (raw.gate.toNat = 1 ∨ raw.gate.toNat = 2) ∧ 2 ≤ raw.stamp.toNat ∧ raw.stamp.toNat ≤ 7) ∧
      raw.mode.toNat ≤ 3 ∧ (raw.mode.toNat = 0 → raw.offAngle.toNat < p) ∧
      (raw.mode.toNat = 1 → raw.duration ≠ 0) ∧ (raw.mode.toNat = 2 → raw.longDuration ≠ 0 ∧ odd = false) ∧
      (raw.mode.toNat = 3 → 1 ≤ raw.dotCount.toNat ∧ raw.dotCount.toNat ≤ 15 ∧ raw.dot ≠ 0 ∧ raw.gap ≠ 0)) ∧
    (∀ c ∈ namedConfig l p odd raw,
      some c.gate = (match raw.gate.toNat with
        | 0 => some .always
        | 1 => some .present
        | 2 => (fields[raw.gateField.toNat - 2]?).map .presentAfter
        | 3 => some .rejected
        | 4 => some .sample
        | _ => some .batchEnd) ∧
      c.stamp = (if raw.stamp = 0xFF then none else fields[raw.stamp.toNat - 2]?) ∧
      some c.mode = [PulseMode.angle, .time, .timeLong, .dots][raw.mode.toNat]? ∧
      c.duration = raw.duration.toNat ∧ c.longDuration = raw.longDuration.toNat ∧ c.dotCount = raw.dotCount.toNat ∧
      c.dot = raw.dot.toNat ∧ c.gap = raw.gap.toNat ∧
      c.sp = raw.sp.toNat ∧ c.onAngle = raw.onAngle.toNat ∧ c.offAngle = raw.offAngle.toNat ∧
      c.latencyOn = min raw.latencyOn.toNat 20000 ∧ c.latencyOff = min raw.latencyOff.toNat 20000 ∧
      c.leadLimit = min raw.leadLimit.toNat (p - 1) ∧ c.minSpeed = raw.minSpeed.toNat ∧ c.Ok l p)

/-- ENABLE_CHANNEL, given with SETUP: RANGE above 15, BUSY when CLAIMED, nothing on an enabled channel; a DISABLED one arms
with no due cycle, or waits while the absolute count is not presented. That the command leaves what a channel keeps of a
spell of inhibition (`dropped` and `cut`) is the model's choice (log 30). -/
def Obligations.EnableArmsOrWaits : Prop :=
  ∀ (s : State) (p : PortNum) (k : ChanNum) (b : Byte) (ch : Channel), s.bti = .code p →
    (s.ports.get p).privileges.setup = true → ch = s.chans.get k →
    (15 < b.toNat → exec (.enableChannel p b) s = .next (s.answered p ⟨.range, 0x51, []⟩)) ∧
    (b.toNat = k.val →
      (ch.state = .claimed → exec (.enableChannel p b) s = .next (s.answered p ⟨.busy, 0x51, []⟩)) ∧
      (ch.state ≠ .claimed → ch.state ≠ .disabled → exec (.enableChannel p b) s
        = .next (s.answered p ⟨.ok, 0x51, [match ch.state with
          | .disabled => 0 | .waiting => 1 | .armed _ => 2 | .on _ _ => 3 | .gap _ _ => 4 | .claimed => 5]⟩)) ∧
      (ch.state = .disabled → s.phu.phase = .synced → s.phu.debt = 0 → exec (.enableChannel p b) s
        = .next ({ s with chans := s.chans.put k { ch with
            due := none, state := .armed (ch.config.latch s.phu.p s.phu.speed ⟨s.phu.cycle, s.phu.mc⟩) } }.answered p
          ⟨.ok, 0x51, [2]⟩)) ∧
      (ch.state = .disabled → s.phu.phase = .unsynced ∨ 0 < s.phu.debt → exec (.enableChannel p b) s
        = .next ({ s with chans := s.chans.put k { ch with due := none, state := .waiting } }.answered p
          ⟨.ok, 0x51, [1]⟩)))

/-! ## Reading the state -/

/-- READ_PHASE and READ_LINE answer the live values; CAPTURE stores them with the sixteen channels in the port's snapshot
and READ_SNAPSHOT then answers what was latched, or NONE while the snapshot is empty. Then the 120 bytes of a snapshot
(Table 10-7). -/
def Obligations.PhaseAndLineReaders : Prop :=
  ∀ (s : State) (p : PortNum) (k : ChanNum) (w : Snapshot) (two : Nat → List Byte) (marks : PhaseState → Tracking → Byte),
    s.bti = .code p → two = (fun n => [BitVec.ofNat 8 (n / 256), BitVec.ofNat 8 n]) →
    marks = (fun phase tracking =>
      BitVec.ofNat 8 ((if phase = .synced then 1 else 0) + (if tracking = .lost then 2 else 0))) →
    exec (.readPhase p) s = .next (s.answered p ⟨.ok, 0x10,
      bytes16 s.phu.cycle ++ bytes16 (BitVec.ofNat 16 s.phu.mc) ++ bytes16 (BitVec.ofInt 16 s.phu.speed)
        ++ [BitVec.ofNat 8 s.phu.debt, marks s.phu.phase s.ttb.tracking]
        ++ bytes16 (BitVec.ofNat 16 s.phu.p)
        ++ [BitVec.ofNat 8 s.phu.t ||| (BitVec.ofNat 8 s.phu.missing <<< 6)]⟩) ∧
    exec (.readLine p) s = .next (s.answered p ⟨.ok, 0x24,
      [BitVec.ofNat 8 s.ttb.l, BitVec.ofNat 8 s.ttb.kc, if s.ttb.tracking = .lost then 1 else 0]
        ++ bytes16 s.phu.cycle
        ++ [BitVec.ofNat 8 (s.ttb.holding fun r => r.place == Place.inLine)]⟩) ∧
    exec (.readSnapshot p) s = .next (s.answered p
      (match s.phu.snapshots.get p with
        | none => ⟨.nothing, 0x12, []⟩
        | some v => ⟨.ok, 0x12, v.bytes⟩)) ∧
    (Completes (exec (.capture p) s) fun t =>
      t = { s with phu := { s.phu with snapshots := t.phu.snapshots } }.answered p ⟨.ok, 0x11, []⟩ ∧
      (∀ q, q ≠ p → t.phu.snapshots.get q = s.phu.snapshots.get q) ∧
      ∃ v ∈ t.phu.snapshots.get p, v.cycle = s.phu.cycle ∧ v.mc = s.phu.mc ∧ v.speed = s.phu.speed ∧
        v.debt = s.phu.debt ∧ v.phase = s.phu.phase ∧ v.tracking = s.ttb.tracking ∧
        v.chans.get k = ⟨match (s.chans.get k).state with
            | .disabled => .disabled | .waiting => .waiting | .armed _ => .armed | .on _ _ => .on | .gap _ _ => .gap
            | .claimed => .claimed,
          ((s.chans.get k).state.latch.map Latch.ct).getD 0,
          ((s.chans.get k).state.timer.map fun x : Timer => x.duration - (x.left + 19) / 20).getD 0⟩) ∧
    w.bytes.length = 120 ∧
    w.bytes = two w.cycle.toNat ++ two w.mc ++ two (BitVec.ofInt 16 w.speed).toNat
      ++ [BitVec.ofNat 8 w.debt, marks w.phase w.tracking]
      ++ (List.finRange 16).flatMap fun n =>
        (match (w.chans.get n).phase with
          | .disabled => 0 | .waiting => 1 | .armed => 2 | .on => 3 | .gap => 4 | .claimed => 5 : Byte)
        :: two (w.chans.get n).target.toNat ++ two ((w.chans.get n).elapsed / 65536) ++ two (w.chans.get n).elapsed

/-- READ_CHANNEL, READ_JOB, READ_OPEN and READ_BATCH are open to every port, answer what they name, refuse a number out of
range, and change nothing but the issuing port's buffer; which job slots are in use. Then the layouts: the 81 bytes of
READ_CHANNEL, whose gate-field byte of a gate without a field may name any field (the model's free choice, log 7); the 14
of a job slot; the 22 of the open batch, with its in-stack count saturated as a batch record's is (inferred, log 14); and
the 24 of a batch record. -/
def Obligations.BlockReaders : Prop :=
  ∀ (s : State) (p : PortNum) (b : Byte) (k : ChanNum) (j : JobNum) (ch : Channel) (f g : ResultField) (slot : JobSlot)
    (cut inUse : Bool) (o : OpenBatch) (e : BatchRecord) (two four : Nat → List Byte) (flag : Bool → Nat → Nat)
    (fieldCode : ResultField → Nat) (config : ChanConfig → ResultField → List Byte), s.bti = .code p →
    two = (fun n => [BitVec.ofNat 8 (n / 256), BitVec.ofNat 8 n]) →
    four = (fun n => two (n / 65536) ++ two n) → flag = (fun y n => if y then n else 0) →
    fieldCode = (fun h => match h with
      | .cut => 2 | .win => 3 | .patch => 4 | .gum => 5 | .fold => 6 | .inspect => 7) →
    config = (fun c unread =>
      [BitVec.ofNat 8 c.sp,
       (match c.gate with
        | .always => 0 | .present => 1 | .presentAfter _ => 2 | .rejected => 3 | .sample => 4 | .batchEnd => 5 : Byte),
       BitVec.ofNat 8 (match c.gate with | .presentAfter h => fieldCode h | _ => fieldCode unread),
       (match c.stamp with | none => 0xFF | some h => BitVec.ofNat 8 (fieldCode h))]
      ++ two c.onAngle ++ two c.offAngle
      ++ [(match c.mode with | .angle => 0 | .time => 1 | .timeLong => 2 | .dots => 3 : Byte)]
      ++ two c.duration ++ four c.longDuration ++ [BitVec.ofNat 8 c.dotCount] ++ two c.dot ++ two c.gap
      ++ two c.latencyOn ++ two c.latencyOff ++ two c.leadLimit ++ two c.minSpeed) →
    (15 < b.toNat → exec (.readChannel p b) s = .next (s.answered p ⟨.range, 0x53, []⟩)) ∧
    (b.toNat = k.val → Completes (exec (.readChannel p b) s) fun t =>
      t = { s with frees := t.frees }.answered p (t.ports.get p).response ∧
      ∃ h h', (t.ports.get p).response = ⟨.ok, 0x53, (s.chans.get k).bytes k h h'⟩ ∧
        (t.ports.get p).response.payload.length = 81) ∧
    (7 < b.toNat → exec (.readJob p b) s = .next (s.answered p ⟨.range, 0x63, []⟩)) ∧
    (b.toNat = j.val → exec (.readJob p b) s = .next (s.answered p ⟨.ok, 0x63,
      (s.bfu.jobs.get j).bytes j (s.bfu.cutJob == j) (s.jobInUse j)⟩)) ∧
    (s.jobInUse j = true ↔ s.bfu.cutJob = j ∨ s.bfu.openBatch.job = j ∨
      ∃ i, ∃ r ∈ s.ttb.slots.get i, r.place = .inLine ∧ r.kind ≠ .void ∧ r.cls = .uncounted ∧ r.job = j) ∧
    exec (.readOpen p) s = .next (s.answered p ⟨.ok, 0x64, s.bfu.openBatch.bytes⟩) ∧
    (s.bfu.queue.length ≤ b.toNat →
      exec (.readBatch p b) s = .next (s.answered p ⟨.range, 0x66, []⟩)) ∧
    (∀ entry ∈ s.bfu.queue[b.toNat]?, exec (.readBatch p b) s = .next (s.answered p
      ⟨.ok, 0x66, BitVec.ofNat 8 s.bfu.queue.length :: entry.bytes⟩)) ∧
    ch.bytes k f g = [BitVec.ofNat 8 k.val,
        (match ch.state with
          | .disabled => 0 | .waiting => 1 | .armed _ => 2 | .on _ _ => 3 | .gap _ _ => 4 | .claimed => 5),
        BitVec.ofNat 8 (flag ch.pending.isSome 1)]
      ++ config ch.config f ++ (match ch.pending with | none => List.replicate 28 0 | some c => config c g)
      ++ two ((ch.state.latch.map Latch.ct).getD 0).toNat
      ++ two ((ch.state.latch.map Latch.onLead).getD 0) ++ two ((ch.state.latch.map Latch.offLead).getD 0)
      ++ four ((ch.state.latch.map Latch.aOn).getD 0) ++ four ((ch.state.latch.bind Latch.aOff).getD 0)
      ++ two ((ch.state.pulse.map fun pulse : Pulse => pulse.gating.serial).getD 0).toNat
      ++ four ((ch.state.timer.map fun x : Timer => x.duration - (x.left + 19) / 20).getD 0) ++ two ch.overruns ∧
    slot.bytes j cut inUse = [BitVec.ofNat 8 j.val,
        BitVec.ofNat 8 (flag slot.defined 1 + flag slot.next.isSome 2 + flag cut 4 + flag inUse 8)]
      ++ four slot.order.toNat ++ two slot.size ++ two (slot.next.getD 0) ++ two slot.quota ++ two slot.closed ∧
    o.bytes = two o.number.toNat ++ [BitVec.ofNat 8 o.job.val] ++ two o.ne ++ two o.good ++ two o.diverted
      ++ two o.passed ++ two o.sample ++ two (min (o.good + o.passed) 65535) ++ two (o.firstSerial.getD 0).toNat
      ++ two (o.lastSerial.getD 0).toNat ++ two ((o.lastInStack.map Held.serial).getD 0).toNat
      ++ [BitVec.ofNat 8 (flag o.firstSerial.isSome 1 + flag o.lastInStack.isSome 2 + flag o.oversize 4 + flag o.mixed 8
          + flag o.contaminated 16 + flag o.closePending 32)] ∧
    e.bytes = two e.number.toNat
      ++ [BitVec.ofNat 8 e.job.val, BitVec.ofNat 8 (flag e.short 1 + flag e.oversize 2 + flag e.mixed 4
          + flag e.contaminated 8 + flag e.forced 16)]
      ++ four e.order.toNat ++ two e.good ++ two e.diverted ++ two e.passed ++ two e.sample
      ++ two (min (e.good + e.passed) 65535) ++ two (e.firstSerial.getD 0).toNat ++ two (e.lastSerial.getD 0).toNat
      ++ two e.closingCycle.toNat

/-! ## Batches, jobs and the queue -/

/-- Classifying a record handed over at Kc whose job is the open batch's: VOID_SKIP touches no batch; otherwise the class
of Table 7-2 is written with the batch number and counted, a record out of the stack ends there, and batch end is set on it
exactly when the batch closes on it (BatchClosesAtItsSize). A record of another job is classified as the batch that the job
test leaves has it: the re-tagged or newly opened batch of its own job, or, while the queue is full, the held batch, which
counts it with MIXED whatever its job. -/
def Obligations.ClassificationCounts : Prop :=
  ∀ (s : State) (r : Record) (y : Word) (q : PortNum) (e : Event) (o : OpenBatch) (cls : BlankClass) (inStack : Bool)
    (good passed : Nat), o = s.bfu.openBatch →
    s.ttb.lookup r.serial = some r → (r.route = .diverted → r.reject.isSome) →
    cls = (if r.route = .sampled then .sample else if r.route = .diverted then .divertedReject
      else if r.reject.isSome then .passedReject else .good) →
    inStack = (cls == .good || cls == .passedReject) →
    good = (if cls = .good then min (o.good + 1) 65535 else o.good) →
    passed = (if cls = .passedReject then min (o.passed + 1) 65535 else o.passed) →
    s.classify r = { s with
      ttb := { s.ttb with slots := (s.classify r).ttb.slots }
      bfu := (s.classify r).bfu, events := (s.classify r).events } ∧
    (r.kind = .void ∨ o.job = r.job → y ≠ r.serial → (s.classify r).ttb.lookup y = s.ttb.lookup y) ∧
    (r.kind ≠ .void → o.job ≠ r.job →
      o.good + o.diverted + o.passed + o.sample = 0 ∨ s.bfu.queue.length < 16 →
      s.classify r = (s.jobTest r.job).classify r ∧ (s.jobTest r.job).bfu.openBatch.job = r.job) ∧
    (r.kind ≠ .void → o.job ≠ r.job → 0 < o.good + o.diverted + o.passed + o.sample → 16 ≤ s.bfu.queue.length →
      (y ≠ r.serial → (s.classify r).ttb.lookup y = s.ttb.lookup y) ∧
      (s.classify r).ttb.lookup r.serial = some { r with cls := cls, batch := some o.number } ∧
      (s.classify r).bfu = { s.bfu with
        qfull := true
        openBatch := { o with
          mixed := true, good := good, passed := passed
          sample := if cls = .sample then min (o.sample + 1) 65535 else o.sample
          diverted := if cls = .divertedReject then min (o.diverted + 1) 65535 else o.diverted
          firstSerial := some (o.firstSerial.getD r.serial), lastSerial := some r.serial
          lastInStack := if inStack then some ⟨r.serial, some r.birth⟩ else o.lastInStack
          contaminated := o.contaminated || cls == .passedReject
          oversize := o.oversize || (inStack && decide (o.ne < good + passed))
          closePending := o.closePending || (inStack && decide (o.ne ≤ good + passed)) } } ∧
      (s.classify r).requested q e = (s.requested q e || (e == .qfull && !s.bfu.qfull)) ∧
      ((s.classify r).events.get q).enable = (s.events.get q).enable) ∧
    (r.kind = .void → (s.classify r).bfu = s.bfu ∧ (s.classify r).events = s.events ∧
      (s.classify r).ttb.lookup r.serial = some { r with cls := .voidSkip }) ∧
    (r.kind ≠ .void → o.job = r.job →
      (s.classify r).ttb.lookup r.serial = some { r with
        cls := cls, batch := some o.number
        batchEnd := r.batchEnd || (inStack && decide (s.bfu.queue.length < 16) &&
          (o.closePending || decide (o.ne ≤ good + passed))) } ∧
      (cls = .sample ∨ cls = .divertedReject →
        (s.classify r).events = s.events ∧ (s.classify r).bfu = { s.bfu with openBatch := { o with
          sample := if cls = .sample then min (o.sample + 1) 65535 else o.sample
          diverted := if cls = .divertedReject then min (o.diverted + 1) 65535 else o.diverted
          firstSerial := some (o.firstSerial.getD r.serial), lastSerial := some r.serial } }) ∧
      (cls = .good ∨ cls = .passedReject → good + passed < o.ne → o.closePending = false →
        (s.classify r).events = s.events ∧ (s.classify r).bfu = { s.bfu with openBatch := { o with
          good := good, passed := passed
          firstSerial := some (o.firstSerial.getD r.serial), lastSerial := some r.serial
          lastInStack := some ⟨r.serial, some r.birth⟩
          contaminated := o.contaminated || cls == .passedReject } }))

/-- A GOOD or PASSED_REJECT record that brings the open batch of its job to its size, or finds its close pending: with room
the batch closes on it, with batch end, OVERSIZE if it has passed its size, BATCH, and the next batch of the job; with a
full queue the close is held, and QFULL is raised once in the spell. -/
def Obligations.BatchClosesAtItsSize : Prop :=
  ∀ (s : State) (r : Record) (y : Word) (o : OpenBatch) (j : JobSlot) (q : PortNum) (e : Event) (cls : BlankClass)
    (good passed : Nat) (oversize contaminated : Bool),
    o = s.bfu.openBatch → j = s.bfu.jobs.get o.job → s.ttb.lookup r.serial = some r → r.kind ≠ .void →
    r.route = .stream → o.job = r.job →
    cls = (if r.reject = none then .good else .passedReject) →
    good = (if r.reject = none then min (o.good + 1) 65535 else o.good) →
    passed = (if r.reject = none then o.passed else min (o.passed + 1) 65535) →
    o.ne ≤ good + passed ∨ o.closePending = true →
    oversize = (o.oversize || decide (o.ne < good + passed)) →
    contaminated = (o.contaminated || decide (r.reject ≠ none)) →
    (s.bfu.queue.length < 16 →
      s.classify r = { s with
        ttb := { s.ttb with slots := (s.classify r).ttb.slots }
        bfu := { s.bfu with
          queue := s.bfu.queue ++ [(⟨o.number, o.job, j.order, good, o.diverted, passed, o.sample,
            some (o.firstSerial.getD r.serial), some r.serial, false, oversize, o.mixed, contaminated, false,
            s.phu.cycle⟩ : BatchRecord)]
          openBatch := ⟨o.number + 1, o.job, j.next.getD j.size, 0, 0, 0, 0, none, none, none, false, false, false, false⟩
          jobs := s.bfu.jobs.put o.job { j with next := none, closed := min (j.closed + 1) 65535 } }
        events := (s.classify r).events } ∧
      (s.classify r).ttb.lookup r.serial
        = some { r with cls := cls, batch := some o.number, batchEnd := true } ∧
      (s.classify r).requested q e = (s.requested q e || e == .batch || (e == .qhigh && s.bfu.queue.length == 11) ||
        (e == .job && j.quota != 0 && j.closed + 1 == j.quota && decide (j.closed < 65535)))) ∧
    (16 ≤ s.bfu.queue.length →
      s.classify r = { s with
        ttb := { s.ttb with slots := (s.classify r).ttb.slots }
        bfu := { s.bfu with
          qfull := true
          openBatch := { o with
            good := good, passed := passed
            firstSerial := some (o.firstSerial.getD r.serial), lastSerial := some r.serial
            lastInStack := some ⟨r.serial, some r.birth⟩, oversize := oversize, contaminated := contaminated
            closePending := true } }
        events := (s.classify r).events } ∧
      (s.classify r).ttb.lookup r.serial = some { r with cls := cls, batch := some o.number } ∧
      (s.classify r).requested q e = (s.requested q e || (e == .qfull && !s.bfu.qfull))) ∧
    (y ≠ r.serial → (s.classify r).ttb.lookup y = s.ttb.lookup y) ∧
    ((s.classify r).events.get q).enable = (s.events.get q).enable

/-- The job test of a record of job `n`: a batch that has counted nothing takes that job and the size it gives; one that has
counted closes SHORT below its size, if there is room, with its whole batch record, its slot's count and the events of every
close, and the next batch opens for the record's job; with a full queue it becomes MIXED. `j` is the batch's own slot. -/
def Obligations.JobTestClosesOrMixes : Prop :=
  ∀ (s : State) (n : JobNum) (o : OpenBatch) (j : JobSlot) (q : PortNum) (e : Event) (y : Word), o = s.bfu.openBatch →
    j = s.bfu.jobs.get o.job →
    (o.job = n → s.jobTest n = s) ∧
    (o.job ≠ n → o.good + o.diverted + o.passed + o.sample = 0 →
      s.jobTest n = { s with bfu := { s.bfu with
        openBatch := { o with job := n, ne := (s.bfu.jobs.get n).next.getD (s.bfu.jobs.get n).size }
        jobs := s.bfu.jobs.put n { s.bfu.jobs.get n with next := none } } }) ∧
    (o.job ≠ n → 0 < o.good + o.diverted + o.passed + o.sample → s.bfu.queue.length < 16 →
      s.jobTest n = { s with
        ttb := { s.ttb with slots := (s.jobTest n).ttb.slots }
        bfu := { s.bfu with
          queue := s.bfu.queue ++ [(⟨o.number, o.job, j.order, o.good, o.diverted, o.passed, o.sample, o.firstSerial,
            o.lastSerial, decide (o.good + o.passed < o.ne), o.oversize, o.mixed, o.contaminated, false, s.phu.cycle⟩ : BatchRecord)]
          openBatch := ⟨o.number + 1, n, (s.bfu.jobs.get n).next.getD (s.bfu.jobs.get n).size, 0, 0, 0, 0, none, none,
            none, false, false, false, false⟩
          jobs := (s.bfu.jobs.put o.job { j with closed := min (j.closed + 1) 65535 }).put n
            { s.bfu.jobs.get n with next := none } }
        events := (s.jobTest n).events } ∧
      (s.jobTest n).requested q e = (s.requested q e || e == .batch || (e == .qhigh && s.bfu.queue.length == 11) ||
        (e == .job && j.quota != 0 && j.closed + 1 == j.quota && decide (j.closed < 65535))) ∧
      ((s.jobTest n).events.get q).enable = (s.events.get q).enable ∧
      ((∀ h ∈ o.lastInStack, y ≠ h.serial) → (s.jobTest n).ttb.lookup y = s.ttb.lookup y) ∧
      (∀ h ∈ o.lastInStack, ∀ r ∈ s.ttb.lookup h.serial, h.birth = some r.birth →
        (s.jobTest n).ttb.lookup h.serial = some { r with batchEnd := true }) ∧
      (∀ h ∈ o.lastInStack, (∀ r ∈ s.ttb.lookup h.serial, h.birth ≠ some r.birth) → (s.jobTest n).ttb = s.ttb) ∧
      (o.lastInStack = none → (s.jobTest n).ttb = s.ttb)) ∧
    (o.job ≠ n → 0 < o.good + o.diverted + o.passed + o.sample → 16 ≤ s.bfu.queue.length →
      s.jobTest n = { s with
        bfu := { s.bfu with openBatch := { o with mixed := true }, qfull := true }, events := (s.jobTest n).events } ∧
      (s.jobTest n).requested q e = (s.requested q e || (e == .qfull && !s.bfu.qfull)) ∧
      ((s.jobTest n).events.get q).enable = (s.events.get q).enable)

/-- CLOSE_BATCH, given with SETUP or BATCH: EMPTY with nothing in the stack, BUSY with a full queue, and otherwise the
batch closes FORCED, with its slot's count and the events of every close, and the next one opens for the same job. -/
def Obligations.CloseBatchForces : Prop :=
  ∀ (s : State) (p q : PortNum) (o : OpenBatch) (j : JobSlot) (e : Event) (y : Word), s.bti ≠ .init →
    ((s.ports.get p).privileges.setup = true ∨ (s.ports.get p).privileges.batch = true) → o = s.bfu.openBatch →
    j = s.bfu.jobs.get o.job →
    (o.good + o.passed = 0 → exec (.closeBatch p) s = .next ((s.openWrite p).answered p ⟨.empty, 0x65, []⟩)) ∧
    (0 < o.good + o.passed → 16 ≤ s.bfu.queue.length →
      exec (.closeBatch p) s = .next ((s.openWrite p).answered p ⟨.busy, 0x65, []⟩)) ∧
    (0 < o.good + o.passed → s.bfu.queue.length < 16 → Completes (exec (.closeBatch p) s) fun t =>
      t = { s.openWrite p with
        ttb := { s.ttb with slots := t.ttb.slots }
        bfu := { s.bfu with
          queue := s.bfu.queue ++ [(⟨o.number, o.job, j.order, o.good, o.diverted, o.passed, o.sample, o.firstSerial,
            o.lastSerial, false, o.oversize, o.mixed, o.contaminated, true, s.phu.cycle⟩ : BatchRecord)]
          openBatch := ⟨o.number + 1, o.job, j.next.getD j.size, 0, 0, 0, 0, none, none, none, false, false, false, false⟩
          jobs := s.bfu.jobs.put o.job { j with next := none, closed := min (j.closed + 1) 65535 } }
        events := t.events }.answered p ⟨.ok, 0x65, bytes16 o.number⟩ ∧
      t.requested q e = (s.requested q e || e == .batch || (e == .qhigh && s.bfu.queue.length == 11) ||
        (e == .job && j.quota != 0 && j.closed + 1 == j.quota && decide (j.closed < 65535))) ∧
      (t.events.get q).enable = (s.events.get q).enable ∧
      ((∀ h ∈ o.lastInStack, y ≠ h.serial) → t.ttb.lookup y = s.ttb.lookup y) ∧
      (∀ h ∈ o.lastInStack, ∀ r ∈ s.ttb.lookup h.serial, h.birth = some r.birth →
        t.ttb.lookup h.serial = some { r with batchEnd := true }) ∧
      (∀ h ∈ o.lastInStack, (∀ r ∈ s.ttb.lookup h.serial, h.birth ≠ some r.birth) → t.ttb = s.ttb))

/-- SET_JOB, SET_BATCH_SIZE and SWITCH_JOB, given with SETUP: their refusals in order, and their effects. -/
def Obligations.JobCommands : Prop :=
  ∀ (s : State) (p : PortNum) (b : Byte) (j : JobNum) (order : BitVec 24) (size quota : Word), s.bti = .code p →
    (s.ports.get p).privileges.setup = true →
    (7 < b.toNat →
      exec (.setJob p b order size quota) s = .next (s.answered p ⟨.range, 0x60, []⟩) ∧
      exec (.setBatchSize p b size) s = .next (s.answered p ⟨.range, 0x61, []⟩) ∧
      exec (.switchJob p b) s = .next (s.answered p ⟨.range, 0x62, []⟩)) ∧
    (b.toNat = j.val →
      (size = 0 → exec (.setJob p b order size quota) s = .next (s.answered p ⟨.range, 0x60, []⟩)) ∧
      (size ≠ 0 → s.jobInUse j = true →
        exec (.setJob p b order size quota) s = .next (s.answered p ⟨.busy, 0x60, []⟩)) ∧
      (size ≠ 0 → s.jobInUse j = false → ∀ x : JobSlot,
        x = ⟨true, order, min size.toNat 50000, none, quota.toNat, 0⟩ →
        exec (.setJob p b order size quota) s = .next ({ s with
          bfu := { s.bfu with jobs := s.bfu.jobs.put j x } }.answered p ⟨.ok, 0x60, x.bytes j false false⟩)) ∧
      (size = 0 ∨ (s.bfu.jobs.get j).defined = false →
        exec (.setBatchSize p b size) s = .next (s.answered p ⟨.range, 0x61, []⟩)) ∧
      (size ≠ 0 → (s.bfu.jobs.get j).defined = true →
        exec (.setBatchSize p b size) s = .next ({ s with bfu := { s.bfu with
          jobs := s.bfu.jobs.put j { s.bfu.jobs.get j with next := some (min size.toNat 50000) } } }.answered p
          ⟨.ok, 0x61, []⟩)) ∧
      ((s.bfu.jobs.get j).defined = false →
        exec (.switchJob p b) s = .next (s.answered p ⟨.range, 0x62, []⟩)) ∧
      ((s.bfu.jobs.get j).defined = true →
        exec (.switchJob p b) s = .next ({ s with bfu := { s.bfu with cutJob := j } }.answered p
          ⟨.ok, 0x62, [BitVec.ofNat 8 s.bfu.cutJob.val, b]⟩)))

/-- POP_BATCH needs BATCH; it is EMPTY on an empty queue; otherwise the oldest entry is removed and answered with the
number left, and a queue that falls from 16 clears the QFULL flag. -/
def Obligations.PopTakesTheOldest : Prop :=
  ∀ (s : State) (p : PortNum) (e : BatchRecord) (rest : List BatchRecord) (batch : Bool), s.bti = .code p →
    (s.ports.get p).privileges.batch = batch →
    (batch = false → Completes (exec (.popBatch p) s)
      (s.Faulted p ⟨.privilege, 0x67, none, none, none, (s.ports.get p).reference⟩)) ∧
    (batch = true → s.bfu.queue = [] → exec (.popBatch p) s = .next (s.answered p ⟨.empty, 0x67, []⟩)) ∧
    (batch = true → s.bfu.queue = e :: rest → exec (.popBatch p) s = .next ({ s with
      bfu := { s.bfu with queue := rest, qfull := s.bfu.qfull && decide (rest.length < 15) } }.answered p
      ⟨.ok, 0x67, BitVec.ofNat 8 rest.length :: e.bytes⟩))

/-! ## Events -/

/-- Raising adds an event to the request sets of all ports, or of one, and to nothing else; a line is asserted while the
two sets share an event. The bit numbers are those of Table 10-3. -/
def Obligations.RaisingAddsToRequests : Prop :=
  ∀ (s : State) (p q : PortNum) (e f : Event),
    s.requested q f = (s.events.get q).request.getLsbD (match f with
      | .fault => 0 | .batch => 1 | .qhigh => 2 | .qfull => 3 | .job => 4 | .lost => 5 | .slip => 6 | .reverse => 7
      | .channel => 8 | .staged => 9 | .sync => 10) ∧
    s.raise e = { s with events := (s.raise e).events } ∧ s.raiseTo p e = { s with events := (s.raiseTo p e).events } ∧
    (s.raise e).requested q f = (s.requested q f || f == e) ∧
    (s.raiseTo p e).requested q f = (s.requested q f || (f == e && q == p)) ∧
    ((s.raise e).events.get q).enable = (s.events.get q).enable ∧
    ((s.raiseTo p e).events.get q).enable = (s.events.get q).enable ∧
    (s.attn q = true ↔ ∃ n : Fin 11, (s.events.get q).request.getLsbD n = true ∧
      (s.events.get q).enable.getLsbD n = true)

/-- SET_EVENTS and CLEAR_EVENTS: RANGE for a bit that names nothing; otherwise SET_EVENTS discards the requests of newly
enabled events and CLEAR_EVENTS removes those it names, and nothing else changes; READ_EVENTS answers both sets and the
line. The line is asserted exactly while the two sets share an event. -/
def Obligations.EventSetCommands : Prop :=
  ∀ (s : State) (p : PortNum) (w : Word) (n : Fin 11) (old : EventSets), s.bti = .code p → old = s.events.get p →
    (2048 ≤ w.toNat →
      exec (.setEvents p w) s = .next (s.answered p ⟨.range, 0x70, []⟩) ∧
      exec (.clearEvents p w) s = .next (s.answered p ⟨.range, 0x72, []⟩)) ∧
    exec (.readEvents p) s = .next (s.answered p ⟨.ok, 0x71,
      bytes16 (old.request.setWidth 16) ++ bytes16 (old.enable.setWidth 16) ++ [if s.attn p then 1 else 0]⟩) ∧
    (s.attn p = true ↔ ∃ m : Fin 11, old.request.getLsbD m = true ∧ old.enable.getLsbD m = true) ∧
    (w.toNat < 2048 →
      (Completes (exec (.setEvents p w) s) fun t =>
        t = { s with events := s.events.put p (t.events.get p) }.answered p ⟨.ok, 0x70,
          bytes16 ((t.events.get p).request.setWidth 16) ++ bytes16 w
            ++ bytes16 ((old.request &&& ~~~ (t.events.get p).request).setWidth 16)⟩ ∧
        (t.events.get p).enable.setWidth 16 = w ∧
        (t.attn p = true ↔ ∃ m : Fin 11, (t.events.get p).request.getLsbD m = true ∧ w.getLsbD m = true) ∧
        (t.events.get p).request.getLsbD n
          = (old.request.getLsbD n && !(w.getLsbD n && !old.enable.getLsbD n))) ∧
      Completes (exec (.clearEvents p w) s) fun t =>
        t = { s with events := s.events.put p (t.events.get p) }.answered p ⟨.ok, 0x72,
          bytes16 ((t.events.get p).request.setWidth 16) ++ bytes16 (old.enable.setWidth 16)⟩ ∧
        (t.events.get p).enable = old.enable ∧
        (t.attn p = true ↔ ∃ m : Fin 11, old.request.getLsbD m = true ∧ w.getLsbD m = false ∧
          old.enable.getLsbD m = true) ∧
        (t.events.get p).request.getLsbD n = (old.request.getLsbD n && !w.getLsbD n))

/-! ## Invariants: every step keeps them, from every state that has them. With no command waiting the step is one CLK
period (the model's choice, log 2). -/

/-- The Phase Unit's ranges and the ports' ranges. -/
def Obligations.StepKeepsRanges : Prop :=
  ∀ s : State, s.phu.Ok → (∀ p, (s.ports.get p).Ok) →
    Completes (step s) fun t => t.phu.Ok ∧ ∀ p, (t.ports.get p).Ok

/-- Where the records stand, and which of them are counted. -/
def Obligations.StepKeepsTheTable : Prop :=
  ∀ s : State, s.ttb.Placed s.phu.cycle → s.ttb.Counted s.phu.cycle →
    Completes (step s) fun t => t.ttb.Placed t.phu.cycle ∧ t.ttb.Counted t.phu.cycle

/-- What the records' marks imply. -/
def Obligations.StepKeepsMarks : Prop :=
  ∀ s : State, s.ttb.Marked → Completes (step s) fun t => t.ttb.Marked

/-- The channels; so an output is active only while the phase is SYNCED and the debt is 0. What a channel keeps of a spell of
inhibition is in no field the manual names (log 30). -/
def Obligations.StepKeepsChannels : Prop :=
  ∀ s : State, s.phu.Ok → s.ChannelsOk →
    Completes (step s) fun t => t.ChannelsOk ∧
      ∀ k, t.out k = true → t.phu.phase = .synced ∧ t.phu.debt = 0

/-- The batches, the jobs and the queue. -/
def Obligations.StepKeepsBatches : Prop :=
  ∀ s : State, s.bfu.Ok → Completes (step s) fun t => t.bfu.Ok

end
end

