-- ==== Sys2Proof/Laws/Bank.lean ====
section
/-! SUPPORT. The laws of the fixed-size container: what stands at a number after each operation. -/

namespace Sys2Proof

variable {α β : Type} {n : Nat}

@[simp] theorem Bank.get_put_same (b : Bank α n) (i : Fin n) (x : α) : (b.put i x).get i = x := by
  simp [Bank.get, Bank.put]

theorem Bank.get_put_ne (b : Bank α n) {i j : Fin n} (x : α) (h : j ≠ i) : (b.put i x).get j = b.get j := by
  have h' : i.val ≠ j.val := fun e => h (Fin.ext e.symm)
  simp [Bank.get, Bank.put, h']

/-- What stands at `j` after `x` was put at `i`. -/
theorem Bank.get_put (b : Bank α n) (i j : Fin n) (x : α) : (b.put i x).get j = if j = i then x else b.get j := by
  by_cases h : j = i
  · subst h; simp
  · simp [h, Bank.get_put_ne b x h]

@[simp] theorem Bank.get_fill (x : α) (i : Fin n) : (Bank.fill n x).get i = x := by
  simp [Bank.get, Bank.fill]

@[simp] theorem Bank.get_map (f : α → β) (b : Bank α n) (i : Fin n) : (b.map f).get i = f (b.get i) := by
  simp [Bank.get, Bank.map]

@[simp] theorem Bank.get_modify_same (b : Bank α n) (i : Fin n) (f : α → α) : (b.modify i f).get i = f (b.get i) := by
  simp [Bank.modify]

theorem Bank.get_modify_ne (b : Bank α n) {i j : Fin n} (f : α → α) (h : j ≠ i) : (b.modify i f).get j = b.get j := by
  simp [Bank.modify, Bank.get_put_ne b _ h]

/-- What stands at `j` after `f` was applied at `i`. -/
theorem Bank.get_modify (b : Bank α n) (i j : Fin n) (f : α → α) :
    (b.modify i f).get j = if j = i then f (b.get i) else b.get j := by
  simp [Bank.modify, Bank.get_put]

/-- Banks are equal when they hold the same at every number. -/
theorem Bank.ext_get {a b : Bank α n} (h : ∀ i, a.get i = b.get i) : a = b := by
  apply Vector.ext
  intro i hi
  exact h ⟨i, hi⟩

@[simp] theorem Bank.put_put (b : Bank α n) (i : Fin n) (x y : α) : (b.put i x).put i y = b.put i y := by
  apply Bank.ext_get
  intro j
  simp only [Bank.get_put]
  split <;> rfl

@[simp] theorem Bank.put_get (b : Bank α n) (i : Fin n) : b.put i (b.get i) = b := by
  apply Bank.ext_get
  intro j
  rw [Bank.get_put]
  split
  · next h => rw [h]
  · rfl

/-- The numbers' contents in their order. -/
theorem Bank.toList_eq (b : Bank α n) : b.toList = (List.finRange n).map b.get := by
  apply List.ext_getElem <;> simp [Bank.get]

theorem Bank.all_iff (b : Bank α n) (f : α → Bool) : b.all f = true ↔ ∀ i, f (b.get i) = true := by
  simp [Bank.all, Bank.toList_eq]

theorem Bank.count_eq (b : Bank α n) (f : α → Bool) :
    b.count f = (List.finRange n).countP fun i => f (b.get i) := by
  simp [Bank.count, Bank.toList_eq, List.countP_eq_length_filter, List.filter_map, Function.comp_def]

end Sys2Proof
end

