-- ==== Sys2Proof/Laws/State.lean ====
section
/-! SUPPORT. What each named update of State leaves in each field, true by unfolding, so that no later proof unfolds a
record update. -/

namespace Sys2Proof.Machine

/-! ### After a raise to all ports (R159) -/

@[simp] theorem State.raise_phu (s : State) (e : Event) : (s.raise e).phu = s.phu := rfl
@[simp] theorem State.raise_ttb (s : State) (e : Event) : (s.raise e).ttb = s.ttb := rfl
@[simp] theorem State.raise_ports (s : State) (e : Event) : (s.raise e).ports = s.ports := rfl
@[simp] theorem State.raise_chans (s : State) (e : Event) : (s.raise e).chans = s.chans := rfl
@[simp] theorem State.raise_bfu (s : State) (e : Event) : (s.raise e).bfu = s.bfu := rfl
@[simp] theorem State.raise_events (s : State) (e : Event) : (s.raise e).events = s.events.map (EventSets.add e) := rfl
@[simp] theorem State.raise_bti (s : State) (e : Event) : (s.raise e).bti = s.bti := rfl
@[simp] theorem State.raise_straps (s : State) (e : Event) : (s.raise e).straps = s.straps := rfl
@[simp] theorem State.raise_clock (s : State) (e : Event) : (s.raise e).clock = s.clock := rfl
@[simp] theorem State.raise_sda (s : State) (e : Event) : (s.raise e).sda = s.sda := rfl
@[simp] theorem State.raise_frees (s : State) (e : Event) : (s.raise e).frees = s.frees := rfl
@[simp] theorem State.raise_pending (s : State) (e : Event) : (s.raise e).pending = s.pending := rfl

/-! ### After a raise to one port (R159) -/

@[simp] theorem State.raiseTo_phu (s : State) (p : PortNum) (e : Event) : (s.raiseTo p e).phu = s.phu := rfl
@[simp] theorem State.raiseTo_ttb (s : State) (p : PortNum) (e : Event) : (s.raiseTo p e).ttb = s.ttb := rfl
@[simp] theorem State.raiseTo_ports (s : State) (p : PortNum) (e : Event) : (s.raiseTo p e).ports = s.ports := rfl
@[simp] theorem State.raiseTo_chans (s : State) (p : PortNum) (e : Event) : (s.raiseTo p e).chans = s.chans := rfl
@[simp] theorem State.raiseTo_bfu (s : State) (p : PortNum) (e : Event) : (s.raiseTo p e).bfu = s.bfu := rfl
@[simp] theorem State.raiseTo_events (s : State) (p : PortNum) (e : Event) :
    (s.raiseTo p e).events = s.events.modify p (EventSets.add e) := rfl
@[simp] theorem State.raiseTo_bti (s : State) (p : PortNum) (e : Event) : (s.raiseTo p e).bti = s.bti := rfl
@[simp] theorem State.raiseTo_straps (s : State) (p : PortNum) (e : Event) : (s.raiseTo p e).straps = s.straps := rfl
@[simp] theorem State.raiseTo_clock (s : State) (p : PortNum) (e : Event) : (s.raiseTo p e).clock = s.clock := rfl
@[simp] theorem State.raiseTo_sda (s : State) (p : PortNum) (e : Event) : (s.raiseTo p e).sda = s.sda := rfl
@[simp] theorem State.raiseTo_frees (s : State) (p : PortNum) (e : Event) : (s.raiseTo p e).frees = s.frees := rfl
@[simp] theorem State.raiseTo_pending (s : State) (p : PortNum) (e : Event) : (s.raiseTo p e).pending = s.pending := rfl

/-! ### After a change of one port -/

@[simp] theorem State.modPort_phu (s : State) (p : PortNum) (f : Port → Port) : (s.modPort p f).phu = s.phu := rfl
@[simp] theorem State.modPort_ttb (s : State) (p : PortNum) (f : Port → Port) : (s.modPort p f).ttb = s.ttb := rfl
@[simp] theorem State.modPort_ports (s : State) (p : PortNum) (f : Port → Port) :
    (s.modPort p f).ports = s.ports.modify p f := rfl
@[simp] theorem State.modPort_chans (s : State) (p : PortNum) (f : Port → Port) : (s.modPort p f).chans = s.chans := rfl
@[simp] theorem State.modPort_bfu (s : State) (p : PortNum) (f : Port → Port) : (s.modPort p f).bfu = s.bfu := rfl
@[simp] theorem State.modPort_events (s : State) (p : PortNum) (f : Port → Port) :
    (s.modPort p f).events = s.events := rfl
@[simp] theorem State.modPort_bti (s : State) (p : PortNum) (f : Port → Port) : (s.modPort p f).bti = s.bti := rfl
@[simp] theorem State.modPort_straps (s : State) (p : PortNum) (f : Port → Port) :
    (s.modPort p f).straps = s.straps := rfl
@[simp] theorem State.modPort_clock (s : State) (p : PortNum) (f : Port → Port) : (s.modPort p f).clock = s.clock := rfl
@[simp] theorem State.modPort_sda (s : State) (p : PortNum) (f : Port → Port) : (s.modPort p f).sda = s.sda := rfl
@[simp] theorem State.modPort_frees (s : State) (p : PortNum) (f : Port → Port) : (s.modPort p f).frees = s.frees := rfl
@[simp] theorem State.modPort_pending (s : State) (p : PortNum) (f : Port → Port) :
    (s.modPort p f).pending = s.pending := rfl

/-! ### After a change of one channel -/

@[simp] theorem State.modChan_phu (s : State) (k : ChanNum) (f : Channel → Channel) : (s.modChan k f).phu = s.phu := rfl
@[simp] theorem State.modChan_ttb (s : State) (k : ChanNum) (f : Channel → Channel) : (s.modChan k f).ttb = s.ttb := rfl
@[simp] theorem State.modChan_ports (s : State) (k : ChanNum) (f : Channel → Channel) :
    (s.modChan k f).ports = s.ports := rfl
@[simp] theorem State.modChan_chans (s : State) (k : ChanNum) (f : Channel → Channel) :
    (s.modChan k f).chans = s.chans.modify k f := rfl
@[simp] theorem State.modChan_bfu (s : State) (k : ChanNum) (f : Channel → Channel) : (s.modChan k f).bfu = s.bfu := rfl
@[simp] theorem State.modChan_events (s : State) (k : ChanNum) (f : Channel → Channel) :
    (s.modChan k f).events = s.events := rfl
@[simp] theorem State.modChan_bti (s : State) (k : ChanNum) (f : Channel → Channel) : (s.modChan k f).bti = s.bti := rfl
@[simp] theorem State.modChan_straps (s : State) (k : ChanNum) (f : Channel → Channel) :
    (s.modChan k f).straps = s.straps := rfl
@[simp] theorem State.modChan_clock (s : State) (k : ChanNum) (f : Channel → Channel) :
    (s.modChan k f).clock = s.clock := rfl
@[simp] theorem State.modChan_sda (s : State) (k : ChanNum) (f : Channel → Channel) : (s.modChan k f).sda = s.sda := rfl
@[simp] theorem State.modChan_frees (s : State) (k : ChanNum) (f : Channel → Channel) :
    (s.modChan k f).frees = s.frees := rfl
@[simp] theorem State.modChan_pending (s : State) (k : ChanNum) (f : Channel → Channel) :
    (s.modChan k f).pending = s.pending := rfl

/-! ### After a change of the Tracking Table -/

@[simp] theorem State.modTable_phu (s : State) (f : Ttb → Ttb) : (s.modTable f).phu = s.phu := rfl
@[simp] theorem State.modTable_ttb (s : State) (f : Ttb → Ttb) : (s.modTable f).ttb = f s.ttb := rfl
@[simp] theorem State.modTable_ports (s : State) (f : Ttb → Ttb) : (s.modTable f).ports = s.ports := rfl
@[simp] theorem State.modTable_chans (s : State) (f : Ttb → Ttb) : (s.modTable f).chans = s.chans := rfl
@[simp] theorem State.modTable_bfu (s : State) (f : Ttb → Ttb) : (s.modTable f).bfu = s.bfu := rfl
@[simp] theorem State.modTable_events (s : State) (f : Ttb → Ttb) : (s.modTable f).events = s.events := rfl
@[simp] theorem State.modTable_bti (s : State) (f : Ttb → Ttb) : (s.modTable f).bti = s.bti := rfl
@[simp] theorem State.modTable_straps (s : State) (f : Ttb → Ttb) : (s.modTable f).straps = s.straps := rfl
@[simp] theorem State.modTable_clock (s : State) (f : Ttb → Ttb) : (s.modTable f).clock = s.clock := rfl
@[simp] theorem State.modTable_sda (s : State) (f : Ttb → Ttb) : (s.modTable f).sda = s.sda := rfl
@[simp] theorem State.modTable_frees (s : State) (f : Ttb → Ttb) : (s.modTable f).frees = s.frees := rfl
@[simp] theorem State.modTable_pending (s : State) (f : Ttb → Ttb) : (s.modTable f).pending = s.pending := rfl

/-! ### After a change of the Phase Unit -/

@[simp] theorem State.modPhu_phu (s : State) (f : Phu → Phu) : (s.modPhu f).phu = f s.phu := rfl
@[simp] theorem State.modPhu_ttb (s : State) (f : Phu → Phu) : (s.modPhu f).ttb = s.ttb := rfl
@[simp] theorem State.modPhu_ports (s : State) (f : Phu → Phu) : (s.modPhu f).ports = s.ports := rfl
@[simp] theorem State.modPhu_chans (s : State) (f : Phu → Phu) : (s.modPhu f).chans = s.chans := rfl
@[simp] theorem State.modPhu_bfu (s : State) (f : Phu → Phu) : (s.modPhu f).bfu = s.bfu := rfl
@[simp] theorem State.modPhu_events (s : State) (f : Phu → Phu) : (s.modPhu f).events = s.events := rfl
@[simp] theorem State.modPhu_bti (s : State) (f : Phu → Phu) : (s.modPhu f).bti = s.bti := rfl
@[simp] theorem State.modPhu_straps (s : State) (f : Phu → Phu) : (s.modPhu f).straps = s.straps := rfl
@[simp] theorem State.modPhu_clock (s : State) (f : Phu → Phu) : (s.modPhu f).clock = s.clock := rfl
@[simp] theorem State.modPhu_sda (s : State) (f : Phu → Phu) : (s.modPhu f).sda = s.sda := rfl
@[simp] theorem State.modPhu_frees (s : State) (f : Phu → Phu) : (s.modPhu f).frees = s.frees := rfl
@[simp] theorem State.modPhu_pending (s : State) (f : Phu → Phu) : (s.modPhu f).pending = s.pending := rfl

/-! ### After a change of the Batch Forming Unit -/

@[simp] theorem State.modBfu_phu (s : State) (f : Bfu → Bfu) : (s.modBfu f).phu = s.phu := rfl
@[simp] theorem State.modBfu_ttb (s : State) (f : Bfu → Bfu) : (s.modBfu f).ttb = s.ttb := rfl
@[simp] theorem State.modBfu_ports (s : State) (f : Bfu → Bfu) : (s.modBfu f).ports = s.ports := rfl
@[simp] theorem State.modBfu_chans (s : State) (f : Bfu → Bfu) : (s.modBfu f).chans = s.chans := rfl
@[simp] theorem State.modBfu_bfu (s : State) (f : Bfu → Bfu) : (s.modBfu f).bfu = f s.bfu := rfl
@[simp] theorem State.modBfu_events (s : State) (f : Bfu → Bfu) : (s.modBfu f).events = s.events := rfl
@[simp] theorem State.modBfu_bti (s : State) (f : Bfu → Bfu) : (s.modBfu f).bti = s.bti := rfl
@[simp] theorem State.modBfu_straps (s : State) (f : Bfu → Bfu) : (s.modBfu f).straps = s.straps := rfl
@[simp] theorem State.modBfu_clock (s : State) (f : Bfu → Bfu) : (s.modBfu f).clock = s.clock := rfl
@[simp] theorem State.modBfu_sda (s : State) (f : Bfu → Bfu) : (s.modBfu f).sda = s.sda := rfl
@[simp] theorem State.modBfu_frees (s : State) (f : Bfu → Bfu) : (s.modBfu f).frees = s.frees := rfl
@[simp] theorem State.modBfu_pending (s : State) (f : Bfu → Bfu) : (s.modBfu f).pending = s.pending := rfl

/-! ### After a change of the open batch -/

@[simp] theorem State.modOpen_phu (s : State) (f : OpenBatch → OpenBatch) : (s.modOpen f).phu = s.phu := rfl
@[simp] theorem State.modOpen_ttb (s : State) (f : OpenBatch → OpenBatch) : (s.modOpen f).ttb = s.ttb := rfl
@[simp] theorem State.modOpen_ports (s : State) (f : OpenBatch → OpenBatch) : (s.modOpen f).ports = s.ports := rfl
@[simp] theorem State.modOpen_chans (s : State) (f : OpenBatch → OpenBatch) : (s.modOpen f).chans = s.chans := rfl
@[simp] theorem State.modOpen_bfu (s : State) (f : OpenBatch → OpenBatch) :
    (s.modOpen f).bfu = { s.bfu with openBatch := f s.bfu.openBatch } := rfl
@[simp] theorem State.modOpen_events (s : State) (f : OpenBatch → OpenBatch) : (s.modOpen f).events = s.events := rfl
@[simp] theorem State.modOpen_bti (s : State) (f : OpenBatch → OpenBatch) : (s.modOpen f).bti = s.bti := rfl
@[simp] theorem State.modOpen_straps (s : State) (f : OpenBatch → OpenBatch) : (s.modOpen f).straps = s.straps := rfl
@[simp] theorem State.modOpen_clock (s : State) (f : OpenBatch → OpenBatch) : (s.modOpen f).clock = s.clock := rfl
@[simp] theorem State.modOpen_sda (s : State) (f : OpenBatch → OpenBatch) : (s.modOpen f).sda = s.sda := rfl
@[simp] theorem State.modOpen_frees (s : State) (f : OpenBatch → OpenBatch) : (s.modOpen f).frees = s.frees := rfl
@[simp] theorem State.modOpen_pending (s : State) (f : OpenBatch → OpenBatch) : (s.modOpen f).pending = s.pending := rfl

/-! ### After a change of a job slot -/

@[simp] theorem State.modJob_phu (s : State) (j : JobNum) (f : JobSlot → JobSlot) : (s.modJob j f).phu = s.phu := rfl
@[simp] theorem State.modJob_ttb (s : State) (j : JobNum) (f : JobSlot → JobSlot) : (s.modJob j f).ttb = s.ttb := rfl
@[simp] theorem State.modJob_ports (s : State) (j : JobNum) (f : JobSlot → JobSlot) :
    (s.modJob j f).ports = s.ports := rfl
@[simp] theorem State.modJob_chans (s : State) (j : JobNum) (f : JobSlot → JobSlot) :
    (s.modJob j f).chans = s.chans := rfl
@[simp] theorem State.modJob_bfu (s : State) (j : JobNum) (f : JobSlot → JobSlot) :
    (s.modJob j f).bfu = { s.bfu with jobs := s.bfu.jobs.modify j f } := rfl
@[simp] theorem State.modJob_events (s : State) (j : JobNum) (f : JobSlot → JobSlot) :
    (s.modJob j f).events = s.events := rfl
@[simp] theorem State.modJob_bti (s : State) (j : JobNum) (f : JobSlot → JobSlot) : (s.modJob j f).bti = s.bti := rfl
@[simp] theorem State.modJob_straps (s : State) (j : JobNum) (f : JobSlot → JobSlot) :
    (s.modJob j f).straps = s.straps := rfl
@[simp] theorem State.modJob_clock (s : State) (j : JobNum) (f : JobSlot → JobSlot) :
    (s.modJob j f).clock = s.clock := rfl
@[simp] theorem State.modJob_sda (s : State) (j : JobNum) (f : JobSlot → JobSlot) : (s.modJob j f).sda = s.sda := rfl
@[simp] theorem State.modJob_frees (s : State) (j : JobNum) (f : JobSlot → JobSlot) :
    (s.modJob j f).frees = s.frees := rfl
@[simp] theorem State.modJob_pending (s : State) (j : JobNum) (f : JobSlot → JobSlot) :
    (s.modJob j f).pending = s.pending := rfl

/-! ### After a free choice used -/

@[simp] theorem State.chose_phu (s : State) : (s.chose).phu = s.phu := rfl
@[simp] theorem State.chose_ttb (s : State) : (s.chose).ttb = s.ttb := rfl
@[simp] theorem State.chose_ports (s : State) : (s.chose).ports = s.ports := rfl
@[simp] theorem State.chose_chans (s : State) : (s.chose).chans = s.chans := rfl
@[simp] theorem State.chose_bfu (s : State) : (s.chose).bfu = s.bfu := rfl
@[simp] theorem State.chose_events (s : State) : (s.chose).events = s.events := rfl
@[simp] theorem State.chose_bti (s : State) : (s.chose).bti = s.bti := rfl
@[simp] theorem State.chose_straps (s : State) : (s.chose).straps = s.straps := rfl
@[simp] theorem State.chose_clock (s : State) : (s.chose).clock = s.clock := rfl
@[simp] theorem State.chose_sda (s : State) : (s.chose).sda = s.sda := rfl
@[simp] theorem State.chose_frees (s : State) : (s.chose).frees = s.frees + 1 := rfl
@[simp] theorem State.chose_pending (s : State) : (s.chose).pending = s.pending := rfl

/-! ### After an answer in a response buffer (R66) -/

@[simp] theorem State.answer_phu (s : State) (p : PortNum) (st : Status) (c : Byte) (bs : List Byte) :
    (s.answer p st c bs).phu = s.phu := rfl
@[simp] theorem State.answer_ttb (s : State) (p : PortNum) (st : Status) (c : Byte) (bs : List Byte) :
    (s.answer p st c bs).ttb = s.ttb := rfl
@[simp] theorem State.answer_ports (s : State) (p : PortNum) (st : Status) (c : Byte) (bs : List Byte) :
    (s.answer p st c bs).ports = s.ports.modify p fun q => { q with response := ⟨st, c, bs⟩ } := rfl
@[simp] theorem State.answer_chans (s : State) (p : PortNum) (st : Status) (c : Byte) (bs : List Byte) :
    (s.answer p st c bs).chans = s.chans := rfl
@[simp] theorem State.answer_bfu (s : State) (p : PortNum) (st : Status) (c : Byte) (bs : List Byte) :
    (s.answer p st c bs).bfu = s.bfu := rfl
@[simp] theorem State.answer_events (s : State) (p : PortNum) (st : Status) (c : Byte) (bs : List Byte) :
    (s.answer p st c bs).events = s.events := rfl
@[simp] theorem State.answer_bti (s : State) (p : PortNum) (st : Status) (c : Byte) (bs : List Byte) :
    (s.answer p st c bs).bti = s.bti := rfl
@[simp] theorem State.answer_straps (s : State) (p : PortNum) (st : Status) (c : Byte) (bs : List Byte) :
    (s.answer p st c bs).straps = s.straps := rfl
@[simp] theorem State.answer_clock (s : State) (p : PortNum) (st : Status) (c : Byte) (bs : List Byte) :
    (s.answer p st c bs).clock = s.clock := rfl
@[simp] theorem State.answer_sda (s : State) (p : PortNum) (st : Status) (c : Byte) (bs : List Byte) :
    (s.answer p st c bs).sda = s.sda := rfl
@[simp] theorem State.answer_frees (s : State) (p : PortNum) (st : Status) (c : Byte) (bs : List Byte) :
    (s.answer p st c bs).frees = s.frees := rfl
@[simp] theorem State.answer_pending (s : State) (p : PortNum) (st : Status) (c : Byte) (bs : List Byte) :
    (s.answer p st c bs).pending = s.pending := rfl

/-! ### After the latch of a reference cycle (R51) -/

@[simp] theorem State.latchReference_phu (s : State) (p : PortNum) : (s.latchReference p).phu = s.phu := rfl
@[simp] theorem State.latchReference_ttb (s : State) (p : PortNum) : (s.latchReference p).ttb = s.ttb := rfl
@[simp] theorem State.latchReference_ports (s : State) (p : PortNum) :
    (s.latchReference p).ports = s.ports.modify p fun q => { q with reference := s.phu.cycle } := rfl
@[simp] theorem State.latchReference_chans (s : State) (p : PortNum) : (s.latchReference p).chans = s.chans := rfl
@[simp] theorem State.latchReference_bfu (s : State) (p : PortNum) : (s.latchReference p).bfu = s.bfu := rfl
@[simp] theorem State.latchReference_events (s : State) (p : PortNum) : (s.latchReference p).events = s.events := rfl
@[simp] theorem State.latchReference_bti (s : State) (p : PortNum) : (s.latchReference p).bti = s.bti := rfl
@[simp] theorem State.latchReference_straps (s : State) (p : PortNum) : (s.latchReference p).straps = s.straps := rfl
@[simp] theorem State.latchReference_clock (s : State) (p : PortNum) : (s.latchReference p).clock = s.clock := rfl
@[simp] theorem State.latchReference_sda (s : State) (p : PortNum) : (s.latchReference p).sda = s.sda := rfl
@[simp] theorem State.latchReference_frees (s : State) (p : PortNum) : (s.latchReference p).frees = s.frees := rfl
@[simp] theorem State.latchReference_pending (s : State) (p : PortNum) : (s.latchReference p).pending = s.pending := rfl

/-! ### After a snapshot stored (R15) -/

@[simp] theorem State.setSnapshot_phu (s : State) (p : PortNum) (x : Option Snapshot) :
    (s.setSnapshot p x).phu = { s.phu with snapshots := s.phu.snapshots.put p x } := rfl
@[simp] theorem State.setSnapshot_ttb (s : State) (p : PortNum) (x : Option Snapshot) :
    (s.setSnapshot p x).ttb = s.ttb := rfl
@[simp] theorem State.setSnapshot_ports (s : State) (p : PortNum) (x : Option Snapshot) :
    (s.setSnapshot p x).ports = s.ports := rfl
@[simp] theorem State.setSnapshot_chans (s : State) (p : PortNum) (x : Option Snapshot) :
    (s.setSnapshot p x).chans = s.chans := rfl
@[simp] theorem State.setSnapshot_bfu (s : State) (p : PortNum) (x : Option Snapshot) :
    (s.setSnapshot p x).bfu = s.bfu := rfl
@[simp] theorem State.setSnapshot_events (s : State) (p : PortNum) (x : Option Snapshot) :
    (s.setSnapshot p x).events = s.events := rfl
@[simp] theorem State.setSnapshot_bti (s : State) (p : PortNum) (x : Option Snapshot) :
    (s.setSnapshot p x).bti = s.bti := rfl
@[simp] theorem State.setSnapshot_straps (s : State) (p : PortNum) (x : Option Snapshot) :
    (s.setSnapshot p x).straps = s.straps := rfl
@[simp] theorem State.setSnapshot_clock (s : State) (p : PortNum) (x : Option Snapshot) :
    (s.setSnapshot p x).clock = s.clock := rfl
@[simp] theorem State.setSnapshot_sda (s : State) (p : PortNum) (x : Option Snapshot) :
    (s.setSnapshot p x).sda = s.sda := rfl
@[simp] theorem State.setSnapshot_frees (s : State) (p : PortNum) (x : Option Snapshot) :
    (s.setSnapshot p x).frees = s.frees := rfl
@[simp] theorem State.setSnapshot_pending (s : State) (p : PortNum) (x : Option Snapshot) :
    (s.setSnapshot p x).pending = s.pending := rfl

/-! ### After event sets stored (R163) -/

@[simp] theorem State.setEventSets_phu (s : State) (p : PortNum) (x : EventSets) :
    (s.setEventSets p x).phu = s.phu := rfl
@[simp] theorem State.setEventSets_ttb (s : State) (p : PortNum) (x : EventSets) :
    (s.setEventSets p x).ttb = s.ttb := rfl
@[simp] theorem State.setEventSets_ports (s : State) (p : PortNum) (x : EventSets) :
    (s.setEventSets p x).ports = s.ports := rfl
@[simp] theorem State.setEventSets_chans (s : State) (p : PortNum) (x : EventSets) :
    (s.setEventSets p x).chans = s.chans := rfl
@[simp] theorem State.setEventSets_bfu (s : State) (p : PortNum) (x : EventSets) :
    (s.setEventSets p x).bfu = s.bfu := rfl
@[simp] theorem State.setEventSets_events (s : State) (p : PortNum) (x : EventSets) :
    (s.setEventSets p x).events = s.events.put p x := rfl
@[simp] theorem State.setEventSets_bti (s : State) (p : PortNum) (x : EventSets) :
    (s.setEventSets p x).bti = s.bti := rfl
@[simp] theorem State.setEventSets_straps (s : State) (p : PortNum) (x : EventSets) :
    (s.setEventSets p x).straps = s.straps := rfl
@[simp] theorem State.setEventSets_clock (s : State) (p : PortNum) (x : EventSets) :
    (s.setEventSets p x).clock = s.clock := rfl
@[simp] theorem State.setEventSets_sda (s : State) (p : PortNum) (x : EventSets) :
    (s.setEventSets p x).sda = s.sda := rfl
@[simp] theorem State.setEventSets_frees (s : State) (p : PortNum) (x : EventSets) :
    (s.setEventSets p x).frees = s.frees := rfl
@[simp] theorem State.setEventSets_pending (s : State) (p : PortNum) (x : EventSets) :
    (s.setEventSets p x).pending = s.pending := rfl

/-! ### After a raise on a condition -/

@[simp] theorem State.raiseIf_phu (s : State) (c : Bool) (e : Event) :
    (s.raiseIf c e).phu = s.phu := by
  unfold State.raiseIf; split <;> rfl
@[simp] theorem State.raiseIf_ttb (s : State) (c : Bool) (e : Event) :
    (s.raiseIf c e).ttb = s.ttb := by
  unfold State.raiseIf; split <;> rfl
@[simp] theorem State.raiseIf_ports (s : State) (c : Bool) (e : Event) :
    (s.raiseIf c e).ports = s.ports := by
  unfold State.raiseIf; split <;> rfl
@[simp] theorem State.raiseIf_chans (s : State) (c : Bool) (e : Event) :
    (s.raiseIf c e).chans = s.chans := by
  unfold State.raiseIf; split <;> rfl
@[simp] theorem State.raiseIf_bfu (s : State) (c : Bool) (e : Event) :
    (s.raiseIf c e).bfu = s.bfu := by
  unfold State.raiseIf; split <;> rfl
@[simp] theorem State.raiseIf_events (s : State) (c : Bool) (e : Event) :
    (s.raiseIf c e).events = if c then s.events.map (EventSets.add e) else s.events := by
  unfold State.raiseIf; split <;> rfl
@[simp] theorem State.raiseIf_bti (s : State) (c : Bool) (e : Event) :
    (s.raiseIf c e).bti = s.bti := by
  unfold State.raiseIf; split <;> rfl
@[simp] theorem State.raiseIf_straps (s : State) (c : Bool) (e : Event) :
    (s.raiseIf c e).straps = s.straps := by
  unfold State.raiseIf; split <;> rfl
@[simp] theorem State.raiseIf_clock (s : State) (c : Bool) (e : Event) :
    (s.raiseIf c e).clock = s.clock := by
  unfold State.raiseIf; split <;> rfl
@[simp] theorem State.raiseIf_sda (s : State) (c : Bool) (e : Event) :
    (s.raiseIf c e).sda = s.sda := by
  unfold State.raiseIf; split <;> rfl
@[simp] theorem State.raiseIf_frees (s : State) (c : Bool) (e : Event) :
    (s.raiseIf c e).frees = s.frees := by
  unfold State.raiseIf; split <;> rfl
@[simp] theorem State.raiseIf_pending (s : State) (c : Bool) (e : Event) :
    (s.raiseIf c e).pending = s.pending := by
  unfold State.raiseIf; split <;> rfl

/-! ### After the opening of a write transaction (R172, log 5) -/

@[simp] theorem State.openWrite_phu (s : State) (p : PortNum) :
    (s.openWrite p).phu = s.phu := by
  unfold State.openWrite; split <;> rfl
@[simp] theorem State.openWrite_ttb (s : State) (p : PortNum) :
    (s.openWrite p).ttb = s.ttb := by
  unfold State.openWrite; split <;> rfl
theorem State.openWrite_ports (s : State) (p : PortNum) :
    (s.openWrite p).ports =
        if s.bti = .code p then s.ports else s.ports.modify p fun q => { q with reference := s.phu.cycle } := by
  unfold State.openWrite; split <;> rfl
@[simp] theorem State.openWrite_chans (s : State) (p : PortNum) :
    (s.openWrite p).chans = s.chans := by
  unfold State.openWrite; split <;> rfl
@[simp] theorem State.openWrite_bfu (s : State) (p : PortNum) :
    (s.openWrite p).bfu = s.bfu := by
  unfold State.openWrite; split <;> rfl
@[simp] theorem State.openWrite_events (s : State) (p : PortNum) :
    (s.openWrite p).events = s.events := by
  unfold State.openWrite; split <;> rfl
@[simp] theorem State.openWrite_bti (s : State) (p : PortNum) :
    (s.openWrite p).bti = s.bti := by
  unfold State.openWrite; split <;> rfl
@[simp] theorem State.openWrite_straps (s : State) (p : PortNum) :
    (s.openWrite p).straps = s.straps := by
  unfold State.openWrite; split <;> rfl
@[simp] theorem State.openWrite_clock (s : State) (p : PortNum) :
    (s.openWrite p).clock = s.clock := by
  unfold State.openWrite; split <;> rfl
@[simp] theorem State.openWrite_sda (s : State) (p : PortNum) :
    (s.openWrite p).sda = s.sda := by
  unfold State.openWrite; split <;> rfl
@[simp] theorem State.openWrite_frees (s : State) (p : PortNum) :
    (s.openWrite p).frees = s.frees := by
  unfold State.openWrite; split <;> rfl
@[simp] theorem State.openWrite_pending (s : State) (p : PortNum) :
    (s.openWrite p).pending = s.pending := by
  unfold State.openWrite; split <;> rfl

end Sys2Proof.Machine
end

