-- ==== Sys2Proof/Laws/Ops.lean ====
section
/-! SUPPORT. What the shared operations do, said once: the taking of a command, faults, the lookup and the writes of the
Tracking Table, rejects and results, and the order of free choices. -/

namespace Sys2Proof.Machine

/-! ## Taking a command -/

theorem transact_init (p : PortNum) (body : State → State) (s : State) (h : s.bti = .init) :
    transact p body s = .next s := by
  simp [transact, h]

theorem transact_next (p : PortNum) (body : State → State) (s : State) (h : s.bti ≠ .init) :
    transact p body s = .next { body (s.openWrite p) with bti := .idle } := by
  simp [transact, h]

/-- A port as it stands once its write transaction is open: only its reference cycle may have moved. -/
theorem State.openWrite_get (s : State) (p q : PortNum) :
    (s.openWrite p).ports.get q
      = if q = p ∧ s.bti ≠ .code p then { s.ports.get q with reference := s.phu.cycle } else s.ports.get q := by
  rw [State.openWrite_ports]
  by_cases h : s.bti = .code p
  · simp [h]
  · by_cases e : q = p
    · subst e; simp [h]
    · simp [h, e, Bank.get_modify_ne _ _ e]

@[simp] theorem State.openWrite_get_ne (s : State) {p q : PortNum} (h : q ≠ p) :
    (s.openWrite p).ports.get q = s.ports.get q := by
  simp [State.openWrite_get, h]

@[simp] theorem State.openWrite_privileges (s : State) (p q : PortNum) :
    ((s.openWrite p).ports.get q).privileges = (s.ports.get q).privileges := by
  rw [State.openWrite_get]; split <;> rfl

@[simp] theorem State.openWrite_window (s : State) (p q : PortNum) :
    ((s.openWrite p).ports.get q).window = (s.ports.get q).window := by
  rw [State.openWrite_get]; split <;> rfl

@[simp] theorem State.openWrite_mask (s : State) (p q : PortNum) :
    ((s.openWrite p).ports.get q).mask = (s.ports.get q).mask := by
  rw [State.openWrite_get]; split <;> rfl

@[simp] theorem State.openWrite_fault (s : State) (p q : PortNum) :
    ((s.openWrite p).ports.get q).fault = (s.ports.get q).fault := by
  rw [State.openWrite_get]; split <;> rfl

@[simp] theorem State.openWrite_response (s : State) (p q : PortNum) :
    ((s.openWrite p).ports.get q).response = (s.ports.get q).response := by
  rw [State.openWrite_get]; split <;> rfl

theorem State.answer_get (s : State) (p q : PortNum) (st : Status) (c : Byte) (bs : List Byte) :
    (s.answer p st c bs).ports.get q
      = if q = p then { s.ports.get q with response := ⟨st, c, bs⟩ } else s.ports.get q := by
  by_cases h : q = p
  · subst h; simp
  · simp [h, Bank.get_modify_ne _ _ h]

theorem State.privileged_allowed (s : State) (p : PortNum) (code : Byte) (body : State → State) :
    s.privileged p code true body = body s := rfl

theorem State.privileged_refused (s : State) (p : PortNum) (code : Byte) (body : State → State) :
    s.privileged p code false body
      = s.fault p ⟨.privilege, code, none, none, none, (s.ports.get p).reference⟩ := rfl

/-! ## Faults -/

theorem FaultState.meet_of_isFrozen (x : FaultState) (f : FaultRecord) :
    x.meet f = match x with
      | .clear => .frozen false f
      | .frozen _ first => .frozen true first := by
  cases x <;> rfl

/-- What a fault does to the ports: the fault record and the response of the faulting one. -/
theorem State.fault_get (s : State) (p q : PortNum) (f : FaultRecord) :
    (s.fault p f).ports.get q
      = if q = p then { s.ports.get q with fault := (s.ports.get q).fault.meet f, response := ⟨f.kind.status, f.code, []⟩ }
        else s.ports.get q := by
  unfold State.fault
  by_cases h : q = p
  · subst h
    dsimp only
    split <;> simp
  · dsimp only
    split <;> simp [Bank.get_modify_ne _ _ h]

/-- What a fault does to the request sets: FAULT to the faulting port, at a capture. -/
theorem State.fault_events (s : State) (p : PortNum) (f : FaultRecord) :
    (s.fault p f).events
      = if (s.ports.get p).fault.isFrozen then s.events else s.events.modify p (EventSets.add .fault) := by
  unfold State.fault
  dsimp only
  cases h : (s.ports.get p).fault.isFrozen <;> simp

/-- What a fault leaves: everything but the ports and the events. -/
theorem State.fault_frame (s : State) (p : PortNum) (f : FaultRecord) :
    s.fault p f = { s with ports := (s.fault p f).ports, events := (s.fault p f).events } := by
  unfold State.fault
  dsimp only
  split <;> rfl

/-! ## The lookup and the writes of the Tracking Table -/

/-- What a lookup finds: the record in the serial's slot, if it bears that serial (R20). -/
theorem Ttb.lookup_eq_some (t : Ttb) (x : Word) (r : Record) :
    t.lookup x = some r ↔ t.slots.get (slotOf x) = some r ∧ r.serial = x := by
  unfold Ttb.lookup
  cases h : t.slots.get (slotOf x) with
  | none => simp
  | some r' =>
    by_cases e : r'.serial = x
    · simp only [e, if_true, Option.some.injEq]
      constructor
      · intro g; subst g; exact ⟨rfl, e⟩
      · exact fun g => g.1
    · simp only [e, if_false, Option.some.injEq, reduceCtorEq, false_iff]
      rintro ⟨g, g'⟩; subst g; exact e g'

theorem Ttb.lookup_serial {t : Ttb} {x : Word} {r : Record} (h : t.lookup x = some r) : r.serial = x :=
  ((Ttb.lookup_eq_some t x r).mp h).2

/-- A lookup depends on the slots alone. -/
theorem Ttb.lookup_congr {t u : Ttb} (h : t.slots = u.slots) (x : Word) : t.lookup x = u.lookup x := by
  simp [Ttb.lookup, h]

/-- A write that keeps serials is seen by lookups of its own serial and by no other. -/
theorem Ttb.lookup_write (t : Ttb) (x y : Word) (f : Record → Record) (hf : ∀ r, (f r).serial = r.serial) :
    (t.write x f).lookup y = if y = x then (t.lookup x).map f else t.lookup y := by
  unfold Ttb.write
  cases h : t.lookup x with
  | none => by_cases e : y = x <;> simp [e, h]
  | some r =>
    obtain ⟨hs, hx⟩ := (Ttb.lookup_eq_some t x r).mp h
    by_cases e : y = x
    · subst e
      simp only [if_true, Option.map_some, Ttb.lookup_eq_some, Bank.get_put_same, true_and]
      rw [hf, hx]
    · simp only [e, if_false]
      by_cases k : slotOf y = slotOf x
      · have hy : ¬ r.serial = y := by rw [hx]; exact fun g => e g.symm
        have hy' : ¬ (f r).serial = y := by rw [hf]; exact hy
        simp [Ttb.lookup, k, hs, hy, hy']
      · simp [Ttb.lookup, Bank.get_put_ne _ _ k]

/-- A write leaves every field of the table but the slots. -/
theorem Ttb.write_frame (t : Ttb) (x : Word) (f : Record → Record) :
    t.write x f = { t with slots := (t.write x f).slots } := by
  unfold Ttb.write
  split <;> rfl

/-- A write through a held serial reaches only the record it was taken from (R29). -/
theorem Ttb.writeHeld_eq (t : Ttb) (h : Held) (f : Record → Record) :
    t.writeHeld h f
      = if (t.lookup h.serial).any (fun r => h.birth == some r.birth) then t.write h.serial f else t := by
  unfold Ttb.writeHeld Ttb.lookupHeld
  cases t.lookup h.serial with
  | none => simp
  | some r => by_cases e : h.birth = some r.birth <;> simp [e]

theorem Ttb.writeHeld_frame (t : Ttb) (h : Held) (f : Record → Record) :
    t.writeHeld h f = { t with slots := (t.writeHeld h f).slots } := by
  rw [Ttb.writeHeld_eq]
  split
  · exact Ttb.write_frame t h.serial f
  · rfl

/-- A change of every record is seen by every lookup. -/
theorem Ttb.lookup_mapRecords (t : Ttb) (x : Word) (f : Record → Record) (hf : ∀ r, (f r).serial = r.serial) :
    (t.mapRecords f).lookup x = (t.lookup x).map f := by
  simp only [Ttb.lookup, Ttb.mapRecords, Bank.get_map]
  cases h : t.slots.get (slotOf x) with
  | none => rfl
  | some r => simp only [Option.map_some, hf]; split <;> rfl

theorem Ttb.mapRecords_frame (t : Ttb) (f : Record → Record) :
    t.mapRecords f = { t with slots := (t.mapRecords f).slots } := rfl

theorem Ttb.countRecords_eq (t : Ttb) (f : Record → Bool) :
    t.countRecords f = (List.finRange 64).countP fun k => (t.slots.get k).any f := by
  simp [Ttb.countRecords, Bank.count_eq]

/-! ## Rejects and results -/

/-- Rejecting a record, whole (R31). -/
theorem Record.rejectWith_eq (why : Reject) (r : Record) :
    r.rejectWith why
      = { r with reject := some (r.reject.getD why), further := r.further || r.reject.isSome } := by
  unfold Record.rejectWith
  cases h : r.reject <;> simp

@[simp] theorem Record.rejectWith_serial (why : Reject) (r : Record) : (r.rejectWith why).serial = r.serial := by
  rw [Record.rejectWith_eq]

@[simp] theorem Record.rejectIf_true (why : Reject) (r : Record) : r.rejectIf true why = r.rejectWith why := rfl

@[simp] theorem Record.rejectIf_false (why : Reject) (r : Record) : r.rejectIf false why = r := rfl

/-- A conditional reject touches the reject and FURTHER alone. -/
theorem Record.rejectIf_frame (c : Bool) (why : Reject) (r : Record) :
    r.rejectIf c why = { r with reject := (r.rejectIf c why).reject, further := (r.rejectIf c why).further } := by
  cases c
  · rfl
  · simp [Record.rejectWith_eq]

@[simp] theorem Record.rejectIf_serial (c : Bool) (why : Reject) (r : Record) : (r.rejectIf c why).serial = r.serial := by
  rw [Record.rejectIf_frame]

theorem Results.get_set (x : Results) (f g : ResultField) (v : Result) :
    (x.set f v).get g = if g = f then v else x.get g := by
  cases f <;> cases g <;> rfl

/-- The merge rule touches the results, the reject and FURTHER alone. -/
theorem Record.mergeResult_frame (f : ResultField) (v : Result) (r : Record) :
    r.mergeResult f v = { r with
      results := (r.mergeResult f v).results
      reject := (r.mergeResult f v).reject
      further := (r.mergeResult f v).further } := by
  unfold Record.mergeResult
  dsimp only
  split
  · rw [Record.rejectIf_frame]
  · rfl

@[simp] theorem Record.mergeResult_serial (f : ResultField) (v : Result) (r : Record) :
    (r.mergeResult f v).serial = r.serial := by
  rw [Record.mergeResult_frame]

/-- A stamp touches the results, the reject, FURTHER and the route alone. -/
theorem Record.stampWith_frame (st : Stamp) (r : Record) :
    r.stampWith st = { r with
      results := (r.stampWith st).results
      reject := (r.stampWith st).reject
      further := (r.stampWith st).further
      route := (r.stampWith st).route } := by
  cases st with
  | result f => simp only [Record.stampWith]; rw [Record.mergeResult_frame]
  | route v => rfl

/-- The reversal of a stamp touches the same fields as the stamp. -/
theorem Record.unstamp_frame (st : Stamp) (r : Record) :
    r.unstamp st = { r with
      results := (r.unstamp st).results
      reject := (r.unstamp st).reject
      further := (r.unstamp st).further
      route := (r.unstamp st).route } := by
  cases st with
  | result f => simp only [Record.unstamp]; rw [Record.mergeResult_frame]
  | route v => simp only [Record.unstamp]; split <;> rfl

/-! ## Events -/

theorem State.raise_get (s : State) (e : Event) (p : PortNum) :
    (s.raise e).events.get p = EventSets.add e (s.events.get p) := by
  simp

theorem State.raiseTo_get (s : State) (p q : PortNum) (e : Event) :
    (s.raiseTo p e).events.get q = if q = p then EventSets.add e (s.events.get p) else s.events.get q := by
  simp [Bank.get_modify]

/-! ## Free order -/

theorem insertByTurn_perm (turn : Nat → Nat) (k : ChanNum) (ks : List ChanNum) :
    (insertByTurn turn k ks).Perm (k :: ks) := by
  induction ks with
  | nil => exact List.Perm.refl _
  | cons j rest ih =>
    unfold insertByTurn
    split
    · exact List.Perm.refl _
    · exact (List.Perm.cons j ih).trans (List.Perm.swap k j rest)

/-- A free order takes each channel once. -/
theorem inTurn_perm (turn : Nat → Nat) (ks : List ChanNum) : (inTurn turn ks).Perm ks := by
  induction ks with
  | nil => exact List.Perm.refl _
  | cons k rest ih => exact (insertByTurn_perm turn k _).trans (List.Perm.cons k ih)

@[simp] theorem mem_inTurn (turn : Nat → Nat) (ks : List ChanNum) (k : ChanNum) : k ∈ inTurn turn ks ↔ k ∈ ks :=
  (inTurn_perm turn ks).mem_iff

theorem mem_allChans (k : ChanNum) : k ∈ allChans := by
  revert k; decide

end Sys2Proof.Machine
end

