-- ==== Sys2Proof/Laws/Batching.lean ====
section
/-! SUPPORT. What the counting operations do: closing and opening a batch, placing batch end, a close held back, the job
test and the size test; and what every one of them leaves as it was. -/

namespace Sys2Proof.Machine

/-! ## The frame of counting -/

/-- `t` differs from `s` in what counting reaches alone: the Batch Forming Unit, the records' slots and the request
sets. -/
structure State.BatchWork (s t : State) : Prop where
  phu : t.phu = s.phu
  ports : t.ports = s.ports
  chans : t.chans = s.chans
  bti : t.bti = s.bti
  straps : t.straps = s.straps
  clock : t.clock = s.clock
  sda : t.sda = s.sda
  frees : t.frees = s.frees
  pending : t.pending = s.pending
  table : t.ttb = { s.ttb with slots := t.ttb.slots }
  cutJob : t.bfu.cutJob = s.bfu.cutJob
  enables : ∀ p, (t.events.get p).enable = (s.events.get p).enable

theorem State.BatchWork.refl (s : State) : s.BatchWork s where
  phu := rfl
  ports := rfl
  chans := rfl
  bti := rfl
  straps := rfl
  clock := rfl
  sda := rfl
  frees := rfl
  pending := rfl
  table := rfl
  cutJob := rfl
  enables := fun _ => rfl

theorem State.BatchWork.trans {s t u : State} (h : s.BatchWork t) (g : t.BatchWork u) : s.BatchWork u where
  phu := g.phu.trans h.phu
  ports := g.ports.trans h.ports
  chans := g.chans.trans h.chans
  bti := g.bti.trans h.bti
  straps := g.straps.trans h.straps
  clock := g.clock.trans h.clock
  sda := g.sda.trans h.sda
  frees := g.frees.trans h.frees
  pending := g.pending.trans h.pending
  table := by rw [g.table, h.table]
  cutJob := g.cutJob.trans h.cutJob
  enables := fun p => (g.enables p).trans (h.enables p)

theorem State.batchWork_modBfu (s : State) (f : Bfu → Bfu) (h : ∀ b, (f b).cutJob = b.cutJob) :
    s.BatchWork (s.modBfu f) :=
  { State.BatchWork.refl s with cutJob := h s.bfu }

theorem State.batchWork_modOpen (s : State) (f : OpenBatch → OpenBatch) : s.BatchWork (s.modOpen f) :=
  { State.BatchWork.refl s with }

theorem State.batchWork_raise (s : State) (e : Event) : s.BatchWork (s.raise e) :=
  { State.BatchWork.refl s with enables := fun p => by simp [EventSets.add] }

theorem State.batchWork_raiseIf (s : State) (c : Bool) (e : Event) : s.BatchWork (s.raiseIf c e) := by
  cases c
  · exact State.BatchWork.refl s
  · exact State.batchWork_raise s e

theorem State.batchWork_slots (s : State) (f : Ttb → Ttb) (h : ∀ t, f t = { t with slots := (f t).slots }) :
    s.BatchWork (s.modTable f) :=
  { State.BatchWork.refl s with table := h s.ttb }

/-! ## Closing and opening (R137 to R139, R152, R154) -/

theorem State.closeBatch_bfu (s : State) (short forced : Bool) (next : JobNum) :
    (s.closeBatch short forced next).bfu = s.bfu.close short forced s.phu.cycle next := by
  simp [State.closeBatch]

theorem State.closeBatch_ttb (s : State) (short forced : Bool) (next : JobNum) :
    (s.closeBatch short forced next).ttb = s.ttb := by
  simp [State.closeBatch]

theorem State.closeBatch_batchWork (s : State) (short forced : Bool) (next : JobNum) :
    s.BatchWork (s.closeBatch short forced next) :=
  (((State.batchWork_modBfu s (Bfu.close short forced s.phu.cycle next) fun _ => rfl).trans (State.batchWork_raise _ _)).trans
    (State.batchWork_raiseIf _ _ _)).trans (State.batchWork_raiseIf _ _ _)

theorem State.placeBatchEnd_bfu (s : State) : s.placeBatchEnd.bfu = s.bfu := by
  unfold State.placeBatchEnd; split <;> rfl

theorem State.placeBatchEnd_events (s : State) : s.placeBatchEnd.events = s.events := by
  unfold State.placeBatchEnd; split <;> rfl

/-- Where batch end is placed: on the held last in-stack record, if that record still stands in its slot. -/
theorem State.placeBatchEnd_ttb (s : State) :
    s.placeBatchEnd.ttb = match s.bfu.openBatch.lastInStack with
      | none => s.ttb
      | some h => s.ttb.writeHeld h Record.markEnd := by
  unfold State.placeBatchEnd
  cases s.bfu.openBatch.lastInStack <;> rfl

theorem State.placeBatchEnd_batchWork (s : State) : s.BatchWork s.placeBatchEnd := by
  unfold State.placeBatchEnd
  split
  · exact State.BatchWork.refl s
  · exact State.batchWork_slots s _ fun t => Ttb.writeHeld_frame t _ _

theorem State.raiseQfull_bfu (s : State) : s.raiseQfull.bfu = { s.bfu with qfull := true } := by
  unfold State.raiseQfull
  split
  · next h =>
    generalize s.bfu = b at h
    cases b
    simp_all
  · rfl

/-- QFULL is raised once in a full spell (R136). -/
theorem State.raiseQfull_events (s : State) :
    s.raiseQfull.events = if s.bfu.qfull then s.events else s.events.map (EventSets.add .qfull) := by
  unfold State.raiseQfull
  split
  · rfl
  · simp

theorem State.raiseQfull_ttb (s : State) : s.raiseQfull.ttb = s.ttb := by
  unfold State.raiseQfull; split <;> rfl

theorem State.raiseQfull_batchWork (s : State) : s.BatchWork s.raiseQfull := by
  unfold State.raiseQfull
  split
  · exact State.BatchWork.refl s
  · exact (State.batchWork_modBfu s (fun b => { b with qfull := true }) fun _ => rfl).trans
      (State.batchWork_raise _ _)

/-! ## Classification (R127) -/

theorem State.jobTest_batchWork (s : State) (j : JobNum) : s.BatchWork (s.jobTest j) := by
  unfold State.jobTest
  dsimp only
  split
  · exact State.BatchWork.refl s
  · split
    · exact State.batchWork_modBfu s _ fun _ => rfl
    · split
      · exact (State.placeBatchEnd_batchWork s).trans (State.closeBatch_batchWork _ _ _ _)
      · exact (State.batchWork_modOpen s _).trans (State.raiseQfull_batchWork _)

theorem State.sizeTest_batchWork (s : State) (x : Word) : s.BatchWork (s.sizeTest x) := by
  unfold State.sizeTest
  dsimp only
  split
  · exact State.BatchWork.refl s
  · split
    · exact ((State.batchWork_slots s _ fun t => Ttb.write_frame t _ _).trans (State.batchWork_modOpen _ _)).trans
        (State.closeBatch_batchWork _ _ _ _)
    · exact (State.batchWork_modOpen s _).trans (State.raiseQfull_batchWork _)

theorem State.countRecord_batchWork (s : State) (r : Record) : s.BatchWork (s.countRecord r) := by
  have h := (State.batchWork_slots s (Ttb.write r.serial fun r' =>
    { r' with cls := classOf r.route r.reject.isSome, batch := some s.bfu.openBatch.number })
    fun t => Ttb.write_frame t _ _).trans
      (State.batchWork_modOpen _ fun b => b.countIn (classOf r.route r.reject.isSome) ⟨r.serial, some r.birth⟩)
  unfold State.countRecord
  dsimp only
  split
  · exact h.trans (State.sizeTest_batchWork _ _)
  · exact h

theorem State.classify_batchWork (s : State) (r : Record) : s.BatchWork (s.classify r) := by
  unfold State.classify
  split
  · exact State.batchWork_slots s _ fun t => Ttb.write_frame t _ _
  · exact (State.jobTest_batchWork s r.job).trans (State.countRecord_batchWork _ r)

theorem State.handOff_batchWork (s : State) : s.BatchWork s.handOff := by
  unfold State.handOff
  split
  · exact State.BatchWork.refl s
  · split
    · exact State.classify_batchWork s _
    · exact State.BatchWork.refl s

end Sys2Proof.Machine
end

