-- ==== Sys2Proof/Laws/Channels.lean ====
section
/-! SUPPORT. What the channels' shared operations do: arming, pairs, staged configurations, the on event, the end and the
cut of a pulse, and inhibition; and what every one of them leaves as it was. -/

namespace Sys2Proof.Machine

/-! ## The frame of channel work -/

/-- `t` differs from `s` in what channels reach alone: the channels, the records' slots, the request sets, and the count
of free choices. -/
structure State.ChannelWork (s t : State) : Prop where
  phu : t.phu = s.phu
  ports : t.ports = s.ports
  bfu : t.bfu = s.bfu
  bti : t.bti = s.bti
  straps : t.straps = s.straps
  clock : t.clock = s.clock
  sda : t.sda = s.sda
  pending : t.pending = s.pending
  table : t.ttb = { s.ttb with slots := t.ttb.slots }
  enables : ∀ p, (t.events.get p).enable = (s.events.get p).enable

theorem State.ChannelWork.refl (s : State) : s.ChannelWork s where
  phu := rfl
  ports := rfl
  bfu := rfl
  bti := rfl
  straps := rfl
  clock := rfl
  sda := rfl
  pending := rfl
  table := rfl
  enables := fun _ => rfl

theorem State.ChannelWork.trans {s t u : State} (h : s.ChannelWork t) (g : t.ChannelWork u) : s.ChannelWork u where
  phu := g.phu.trans h.phu
  ports := g.ports.trans h.ports
  bfu := g.bfu.trans h.bfu
  bti := g.bti.trans h.bti
  straps := g.straps.trans h.straps
  clock := g.clock.trans h.clock
  sda := g.sda.trans h.sda
  pending := g.pending.trans h.pending
  table := by rw [g.table, h.table]
  enables := fun p => (g.enables p).trans (h.enables p)

theorem State.channelWork_chans (s : State) (cs : Bank Channel 16) : s.ChannelWork { s with chans := cs } :=
  { State.ChannelWork.refl s with }

theorem State.channelWork_modChan (s : State) (k : ChanNum) (f : Channel → Channel) : s.ChannelWork (s.modChan k f) :=
  State.channelWork_chans s _

theorem State.channelWork_chose (s : State) : s.ChannelWork s.chose := { State.ChannelWork.refl s with }

theorem State.channelWork_raise (s : State) (e : Event) : s.ChannelWork (s.raise e) :=
  { State.ChannelWork.refl s with enables := fun p => by simp [EventSets.add] }

theorem State.channelWork_raiseIf (s : State) (c : Bool) (e : Event) : s.ChannelWork (s.raiseIf c e) := by
  cases c
  · exact State.ChannelWork.refl s
  · exact State.channelWork_raise s e

theorem State.channelWork_slots (s : State) (f : Ttb → Ttb) (h : ∀ t, f t = { t with slots := (f t).slots }) :
    s.ChannelWork (s.modTable f) :=
  { State.ChannelWork.refl s with table := h s.ttb }

/-- Work repeated over a list of channels is channel work. -/
theorem State.channelWork_foldl (f : State → ChanNum → State) (h : ∀ (s : State) k, s.ChannelWork (f s k)) (ks : List ChanNum) :
    ∀ s : State, s.ChannelWork (ks.foldl f s) := by
  induction ks with
  | nil => exact State.ChannelWork.refl
  | cons k rest ih => exact fun s => (h s k).trans (ih (f s k))

/-! ## Arming (R92, R93) -/

theorem State.arm_chans (s : State) (k : ChanNum) (x : Count) :
    (s.arm k x).chans = s.chans.modify k (Channel.armAt s.phu.p s.phu.speed x) := by
  simp [State.arm]

theorem State.arm_events (s : State) (k : ChanNum) (x : Count) :
    (s.arm k x).events
      = if (s.chans.get k).overruns? (((s.chans.get k).config.latch s.phu.p s.phu.speed x).ct)
        then s.events.map (EventSets.add .channel) else s.events := by
  simp [State.arm]

theorem State.arm_ttb (s : State) (k : ChanNum) (x : Count) : (s.arm k x).ttb = s.ttb := by
  simp [State.arm]

theorem State.arm_channelWork (s : State) (k : ChanNum) (x : Count) : s.ChannelWork (s.arm k x) :=
  (State.channelWork_modChan s k _).trans (State.channelWork_raiseIf _ _ _)

/-! ## Pairs and staged configurations (R101, R102) -/

theorem State.settlePair_ttb (s : State) (k : ChanNum) : (s.settlePair k).ttb = s.ttb := by
  unfold State.settlePair; split <;> rfl

theorem State.settlePair_events (s : State) (k : ChanNum) : (s.settlePair k).events = s.events := by
  unfold State.settlePair; split <;> rfl

/-- Settling a pair touches the odd partner of an even channel alone. -/
theorem State.settlePair_get (s : State) (k j : ChanNum) :
    (s.settlePair k).chans.get j
      = if isEven k = true ∧ j = partnerOf k then (s.chans.get j).pairWith (s.chans.get k).holdsLong
        else s.chans.get j := by
  unfold State.settlePair
  by_cases h : isEven k = true
  · simp only [h, if_true, State.modChan_chans, Bank.get_modify, true_and]
    split
    · next e => rw [e]
    · rfl
  · simp [h]

theorem partnerOf_ne {k : ChanNum} (h : isEven k = true) : partnerOf k ≠ k := by
  intro e
  have := congrArg Fin.val e
  simp only [isEven, beq_iff_eq, partnerOf] at h this
  omega

theorem State.settlePair_get_self (s : State) (k : ChanNum) : (s.settlePair k).chans.get k = s.chans.get k := by
  rw [State.settlePair_get]
  split
  · next h => exact absurd h.2.symm (partnerOf_ne h.1)
  · rfl

theorem State.settlePair_channelWork (s : State) (k : ChanNum) : s.ChannelWork (s.settlePair k) := by
  unfold State.settlePair
  split
  · exact State.channelWork_modChan s _ _
  · exact State.ChannelWork.refl s

theorem State.applyPending_ttb (s : State) (k : ChanNum) : (s.applyPending k).ttb = s.ttb := by
  unfold State.applyPending
  split
  · rfl
  · rw [State.settlePair_ttb]; rfl

/-- Applying a staged configuration raises STAGED if one was held, and nothing else. -/
theorem State.applyPending_events (s : State) (k : ChanNum) :
    (s.applyPending k).events
      = if (s.chans.get k).pending.isSome then s.events.map (EventSets.add .staged) else s.events := by
  unfold State.applyPending
  cases h : (s.chans.get k).pending with
  | none => rfl
  | some c => rw [State.settlePair_events]; rfl

/-- What applying a staged configuration makes of its own channel. -/
theorem State.applyPending_get_self (s : State) (k : ChanNum) :
    (s.applyPending k).chans.get k
      = { s.chans.get k with config := (s.chans.get k).pending.getD (s.chans.get k).config, pending := none } := by
  unfold State.applyPending
  cases h : (s.chans.get k).pending with
  | none =>
    dsimp only [Option.getD_none]
    generalize s.chans.get k = ch at h
    cases ch
    simp_all
  | some c => simp [State.settlePair_get_self]

theorem State.applyPending_channelWork (s : State) (k : ChanNum) : s.ChannelWork (s.applyPending k) := by
  unfold State.applyPending
  split
  · exact State.ChannelWork.refl s
  · exact ((State.channelWork_modChan s k _).trans (State.channelWork_raise _ _)).trans
      (State.settlePair_channelWork _ k)

/-! ## The on event, the end of a pulse, the point events (R94, R96) -/

theorem Ttb.stamp_frame (st : Option Stamp) (x : Word) (t : Ttb) :
    t.stamp st x = { t with slots := (t.stamp st x).slots } := by
  cases st with
  | none => rfl
  | some st => exact Ttb.write_frame t x _

theorem Ttb.unstamp_frame (pulse : Pulse) (t : Ttb) : t.unstamp pulse = { t with slots := (t.unstamp pulse).slots } := by
  unfold Ttb.unstamp
  cases pulse.stamp with
  | none => rfl
  | some st => exact Ttb.writeHeld_frame t pulse.gating _

theorem State.onEvent_channelWork (s : State) (k : ChanNum) (l : Latch) (x : Count) :
    s.ChannelWork (s.onEvent k l x) := by
  unfold State.onEvent
  dsimp only
  split
  · exact (State.channelWork_modChan s k _).trans (State.channelWork_slots _ _ (Ttb.stamp_frame _ _))
  · exact (State.channelWork_modChan s k _).trans (State.arm_channelWork _ k x)

theorem State.endPulse_channelWork (s : State) (k : ChanNum) (l : Latch) (x : Count) :
    s.ChannelWork (s.endPulse k l x) :=
  ((State.applyPending_channelWork s k).trans (State.channelWork_modChan _ k _)).trans (State.arm_channelWork _ k x)

theorem State.endPulse_ttb (s : State) (k : ChanNum) (l : Latch) (x : Count) : (s.endPulse k l x).ttb = s.ttb := by
  simp [State.endPulse, State.arm_ttb, State.applyPending_ttb]

theorem State.pointEvent_channelWork (x : Count) (s : State) (k : ChanNum) : s.ChannelWork (s.pointEvent x k) := by
  unfold State.pointEvent
  split
  · exact State.onEvent_channelWork s k _ x
  · exact State.endPulse_channelWork s k _ x
  · exact State.ChannelWork.refl s

theorem State.pointEvents_channelWork (s : State) (ks : List ChanNum) (x : Count) :
    s.ChannelWork (s.pointEvents ks x) :=
  State.channelWork_foldl _ (State.pointEvent_channelWork x) _ s

theorem State.runPoints_channelWork (s : State) (x : Count) : s.ChannelWork (s.runPoints x) := by
  unfold State.runPoints
  split
  · exact (State.pointEvents_channelWork s _ x).trans (State.channelWork_chose _)
  · exact State.ChannelWork.refl s

theorem State.runOffPoints_channelWork (s : State) (x : Count) : s.ChannelWork (s.runOffPoints x) := by
  unfold State.runOffPoints
  dsimp only
  split
  · exact State.channelWork_foldl _ (State.pointEvent_channelWork x) _ s
  · exact State.ChannelWork.refl s

/-! ## Cuts and inhibition (R90, R91, R98) -/

theorem State.cutPulse_none (after : ChanState) (s : State) (k : ChanNum) (h : (s.chans.get k).state.pulse = none) :
    s.cutPulse after k = s := by
  simp [State.cutPulse, h]

theorem State.cutPulse_channelWork (after : ChanState) (s : State) (k : ChanNum) :
    s.ChannelWork (s.cutPulse after k) := by
  unfold State.cutPulse
  split
  · exact State.ChannelWork.refl s
  · next pulse _ =>
    exact (((State.channelWork_slots s _ (Ttb.unstamp_frame pulse)).trans (State.channelWork_raise _ _)).trans
      (State.channelWork_modChan _ k _)).trans (State.applyPending_channelWork _ k)

/-- What a cut makes of its own channel. -/
theorem State.cutPulse_get_self (after : ChanState) (s : State) (k : ChanNum) (pulse : Pulse)
    (h : (s.chans.get k).state.pulse = some pulse) :
    (s.cutPulse after k).chans.get k
      = { s.chans.get k with
          state := after, due := none, config := (s.chans.get k).pending.getD (s.chans.get k).config,
          pending := none } := by
  unfold State.cutPulse
  simp only [h]
  rw [State.applyPending_get_self]
  simp

theorem State.beginInhibition_channelWork (s : State) : s.ChannelWork s.beginInhibition := by
  unfold State.beginInhibition
  dsimp only
  exact (((State.channelWork_chans s _).trans (State.channelWork_foldl _ (State.cutPulse_channelWork .waiting) _ _)).trans
    (State.channelWork_chose _)).trans (State.channelWork_chans _ _)

theorem State.endInhibition_channelWork (s : State) (repaid : Bool) : s.ChannelWork (s.endInhibition repaid) :=
  State.channelWork_chans s _

theorem State.endInhibition_get (s : State) (repaid : Bool) (k : ChanNum) :
    (s.endInhibition repaid).chans.get k = (s.chans.get k).resume repaid s.phu.p s.phu.speed s.phu.count := by
  simp [State.endInhibition]

theorem State.endInhibition_ttb (s : State) (repaid : Bool) : (s.endInhibition repaid).ttb = s.ttb := rfl

theorem State.endInhibition_events (s : State) (repaid : Bool) : (s.endInhibition repaid).events = s.events := rfl

/-- A bound moves a target by two cycles at most, and only onto the bound. -/
theorem notBefore_cases (a : Word) (bound : Option Word) :
    notBefore a bound = a ∨ bound = some (notBefore a bound) ∧ (notBefore a bound - a).toNat ≤ 2 := by
  cases bound with
  | none => exact .inl rfl
  | some b =>
    dsimp only [notBefore]
    by_cases h : (b - a).toNat ≤ 2
    · rw [if_pos h]; exact .inr ⟨rfl, h⟩
    · rw [if_neg h]; exact .inl rfl

end Sys2Proof.Machine
end

