-- ==== Sys2Proof/Laws/Wire.lean ====
section
/-! SUPPORT. The wire formats: values and their bytes, field lists and their bytes, and when operands are whole. -/

namespace Sys2Proof

/-! ## Values and their bytes (R178) -/

theorem word16_split (w : Word) : word16 (w.extractLsb' 8 8) (w.extractLsb' 0 8) = w := by
  apply BitVec.eq_of_getLsbD_eq
  intro i hi
  simp only [word16, BitVec.getLsbD_append, BitVec.getLsbD_extractLsb']
  by_cases h : i < 8
  · simp [h]
  · simp [h, show i - 8 < 8 by omega, show 8 + (i - 8) = i by omega]

theorem word24_split (w : BitVec 24) :
    word24 (w.extractLsb' 16 8) (w.extractLsb' 8 8) (w.extractLsb' 0 8) = w := by
  apply BitVec.eq_of_getLsbD_eq
  intro i hi
  simp only [word24, BitVec.getLsbD_append, BitVec.getLsbD_extractLsb']
  by_cases h : i < 8
  · simp [h]
  · by_cases h' : i < 16
    · simp [h, show i - 8 < 8 by omega, show 8 + (i - 8) = i by omega]
    · simp [h, show ¬ i - 8 < 8 by omega, show i - 8 - 8 < 8 by omega, show 16 + (i - 8 - 8) = i by omega]

theorem word32_split (w : BitVec 32) :
    word32 (w.extractLsb' 24 8) (w.extractLsb' 16 8) (w.extractLsb' 8 8) (w.extractLsb' 0 8) = w := by
  apply BitVec.eq_of_getLsbD_eq
  intro i hi
  simp only [word32, BitVec.getLsbD_append, BitVec.getLsbD_extractLsb']
  by_cases h : i < 8
  · simp [h]
  · by_cases h' : i < 16
    · simp [h, show i - 8 < 8 by omega, show 8 + (i - 8) = i by omega]
    · by_cases h'' : i < 24
      · simp [h, show ¬ i - 8 < 8 by omega, show i - 8 - 8 < 8 by omega, show 16 + (i - 8 - 8) = i by omega]
      · simp [h, show ¬ i - 8 < 8 by omega, show ¬ i - 8 - 8 < 8 by omega, show i - 8 - 8 - 8 < 8 by omega,
          show 24 + (i - 8 - 8 - 8) = i by omega]

@[simp] theorem bytes16_length (w : Word) : (bytes16 w).length = 2 := rfl

@[simp] theorem bytes24_length (w : BitVec 24) : (bytes24 w).length = 3 := rfl

@[simp] theorem bytes32_length (w : BitVec 32) : (bytes32 w).length = 4 := rfl

/-! ## Field lists and configurations (R174, Table 10-3) -/

theorem entriesOf_entryBytes (es : List RawEntry) : entriesOf (entryBytes es) = es := by
  induction es with
  | nil => rfl
  | cons e rest ih => simp [entryBytes, entriesOf, ih]

theorem entryBytes_length (es : List RawEntry) : (entryBytes es).length = 2 * es.length := by
  induction es with
  | nil => rfl
  | cons e rest ih => simp [entryBytes, ih]; omega

theorem configOf_configBytes (c : RawConfig) : configOf (configBytes c) = some c := by
  cases c
  simp [configBytes, bytes16, bytes32, configOf, word16_split, word32_split]

theorem configBytes_length (c : RawConfig) : (configBytes c).length = 28 := rfl

/-- A length byte within the limit says the number of entries. -/
theorem lengthByte_toNat (es : List RawEntry) (h : es.length ≤ maxEntries) :
    (BitVec.ofNat 8 es.length : Byte).toNat = es.length := by
  simp only [maxEntries] at h
  rw [BitVec.toNat_ofNat, Nat.mod_eq_of_lt (by omega)]

/-! ## Whole operands (R173, R174) -/

theorem progress_writeRec (i : Byte) (es : List RawEntry) (h : es.length ≤ maxEntries) :
    progress Code.writeRec (i :: BitVec.ofNat 8 es.length :: entryBytes es) = .done := by
  have hl := lengthByte_toNat es h
  generalize (BitVec.ofNat 8 es.length : Byte) = n at hl
  rw [← hl] at h
  simp [progress, operandBytes, Code.writeRec, framedByLength, entryBytes_length, ← hl, Nat.not_lt.mpr h]
  omega

theorem progress_writeRecSer (a b : Byte) (es : List RawEntry) (h : es.length ≤ maxEntries) :
    progress Code.writeRecSer (a :: b :: BitVec.ofNat 8 es.length :: entryBytes es) = .done := by
  have hl := lengthByte_toNat es h
  generalize (BitVec.ofNat 8 es.length : Byte) = n at hl
  rw [← hl] at h
  simp [progress, operandBytes, Code.writeRecSer, Code.writeRec, framedByLength, entryBytes_length, ← hl,
    Nat.not_lt.mpr h, show ¬ 2 * n.toNat + 1 + 1 + 1 < 3 by omega,
    show ¬ 2 * n.toNat + 1 + 1 + 1 < 3 + 2 * n.toNat by omega]

end Sys2Proof
end

