-- ==== Sys2Proof/Laws/PerInstr.lean ====
section
/-! SUPPORT. One lemma per row of the table for the family named in LAWS.json: the bytes that carry a command are framed
by its code and its operand count, and read back as that command. -/

namespace Sys2Proof.Laws.WireFormat

/-- The bytes after the address that carry a well-formed command are a code of Table 10-2 and exactly the operands the
framing of that code asks for, and they spell the command; a row that is no command of the table has none. -/
def Statement (i : Instr) : Prop :=
  ∀ (p : PortNum) (bytes : List Byte), i.wellFormed = true → wireBytes i = some (p, bytes) →
    ∃ code ops, bytes = code :: ops ∧ knownCode code = true ∧ progress code ops = .done ∧ commandOf p code ops = some i

/-- A row without bytes has nothing to show. -/
theorem of_none {i : Instr} (h : wireBytes i = none) : Statement i := by
  intro p bytes _ g
  rw [h] at g
  exact absurd g (by simp)

/-- A row with bytes: what its code and its operands must be shown to do. -/
theorem of_some {i : Instr} {p : PortNum} {code : Byte} {ops : List Byte} (h : wireBytes i = some (p, code :: ops))
    (k : knownCode code = true) (d : i.wellFormed = true → progress code ops = .done)
    (c : commandOf p code ops = some i) : Statement i := by
  intro q bytes w g
  rw [h] at g
  obtain ⟨rfl, rfl⟩ := Prod.mk.inj (Option.some.inj g)
  exact ⟨code, ops, rfl, k, d w, c⟩

theorem forwardCount (jumped feed splice : Bool) : Statement (.forwardCount jumped feed splice) := of_none rfl

theorem backwardCount (jumped : Bool) : Statement (.backwardCount jumped) := of_none rfl

theorem indexEdge (feed splice : Bool) : Statement (.indexEdge feed splice) := of_none rfl

theorem speedWindowEnd : Statement .speedWindowEnd := of_none rfl

theorem powerOnReset (pins : ResetPins) : Statement (.powerOnReset pins) := of_none rfl

theorem rst (pins : ResetPins) : Statement (.rst pins) := of_none rfl

theorem initEnd : Statement .initEnd := of_none rfl

theorem timerExpiry (k : ChanNum) : Statement (.timerExpiry k) := of_none rfl

theorem referenceCycleLatch (address : BitVec 7) : Statement (.referenceCycleLatch address) := of_none rfl

theorem readTransaction (address : BitVec 7) (clocked : Nat) : Statement (.readTransaction address clocked) := of_none rfl

theorem unknownCmd (p : PortNum) (code : Byte) : Statement (.unknownCmd p code) := of_none rfl

theorem short (p : PortNum) (code : Byte) : Statement (.short p code) := of_none rfl

theorem readPhase (p : PortNum) : Statement (.readPhase p) :=
  of_some rfl rfl (fun _ => rfl) rfl

theorem capture (p : PortNum) : Statement (.capture p) :=
  of_some rfl rfl (fun _ => rfl) rfl

theorem readSnapshot (p : PortNum) : Statement (.readSnapshot p) :=
  of_some rfl rfl (fun _ => rfl) rfl

theorem purge (p : PortNum) : Statement (.purge p) :=
  of_some rfl rfl (fun _ => rfl) rfl

theorem rejectRange (p : PortNum) (a b : Byte) : Statement (.rejectRange p a b) :=
  of_some rfl rfl (fun _ => rfl) rfl

theorem resync (p : PortNum) : Statement (.resync p) :=
  of_some rfl rfl (fun _ => rfl) rfl

theorem setLine (p : PortNum) (l kc : Byte) (counts : Word) (t : Byte) :
    Statement (.setLine p l kc counts t) :=
  of_some rfl rfl (fun _ => rfl) (by
    show some (Instr.setLine p l kc (word16 (counts.extractLsb' 8 8) (counts.extractLsb' 0 8)) t) = _
    rw [word16_split])

theorem readLine (p : PortNum) : Statement (.readLine p) :=
  of_some rfl rfl (fun _ => rfl) rfl

theorem readRec (p : PortNum) (index : Byte) : Statement (.readRec p index) :=
  of_some rfl rfl (fun _ => rfl) rfl

theorem readRecSer (p : PortNum) (serial : Word) :
    Statement (.readRecSer p serial) :=
  of_some rfl rfl (fun _ => rfl) (by
    show some (Instr.readRecSer p (word16 (serial.extractLsb' 8 8) (serial.extractLsb' 0 8))) = _
    rw [word16_split])

theorem readWindow (p : PortNum) : Statement (.readWindow p) :=
  of_some rfl rfl (fun _ => rfl) rfl

theorem writeRec (p : PortNum) (index : Byte) (entries : List RawEntry) :
    Statement (.writeRec p index entries) :=
  of_some rfl rfl (fun w => progress_writeRec index entries (by simpa [Instr.wellFormed] using w)) (by
    show some (Instr.writeRec p index (entriesOf (entryBytes entries))) = _
    rw [entriesOf_entryBytes])

theorem writeRecSer (p : PortNum) (serial : Word) (entries : List RawEntry) :
    Statement (.writeRecSer p serial entries) :=
  of_some rfl rfl (fun w => progress_writeRecSer _ _ entries (by simpa [Instr.wellFormed] using w)) (by
    show some (Instr.writeRecSer p (word16 (serial.extractLsb' 8 8) (serial.extractLsb' 0 8))
      (entriesOf (entryBytes entries))) = _
    rw [word16_split, entriesOf_entryBytes])

theorem setPort (p : PortNum) (target privileges base length dirAccess : Byte) (mask : Word) :
    Statement (.setPort p target privileges base length dirAccess mask) :=
  of_some rfl rfl (fun _ => rfl) (by
    show some (Instr.setPort p target privileges base length dirAccess
      (word16 (mask.extractLsb' 8 8) (mask.extractLsb' 0 8))) = _
    rw [word16_split])

theorem readPort (p : PortNum) (target : Byte) : Statement (.readPort p target) :=
  of_some rfl rfl (fun _ => rfl) rfl

theorem readFault (p : PortNum) (target : Byte) : Statement (.readFault p target) :=
  of_some rfl rfl (fun _ => rfl) rfl

theorem clearFault (p : PortNum) : Statement (.clearFault p) :=
  of_some rfl rfl (fun _ => rfl) rfl

theorem portReset (p : PortNum) (target : Byte) : Statement (.portReset p target) :=
  of_some rfl rfl (fun _ => rfl) rfl

theorem setChannel (p : PortNum) (channel : Byte) (config : RawConfig) :
    Statement (.setChannel p channel config) :=
  of_some rfl rfl (fun _ => rfl) (by
    show (configOf (configBytes config)).map (Instr.setChannel p channel) = _
    rw [configOf_configBytes]
    rfl)

theorem enableChannel (p : PortNum) (channel : Byte) : Statement (.enableChannel p channel) :=
  of_some rfl rfl (fun _ => rfl) rfl

theorem disableChannel (p : PortNum) (channel : Byte) : Statement (.disableChannel p channel) :=
  of_some rfl rfl (fun _ => rfl) rfl

theorem readChannel (p : PortNum) (channel : Byte) : Statement (.readChannel p channel) :=
  of_some rfl rfl (fun _ => rfl) rfl

theorem setJob (p : PortNum) (slot : Byte) (order : BitVec 24) (size quota : Word) :
    Statement (.setJob p slot order size quota) :=
  of_some rfl rfl (fun _ => rfl) (by
    show some (Instr.setJob p slot
      (word24 (order.extractLsb' 16 8) (order.extractLsb' 8 8) (order.extractLsb' 0 8))
      (word16 (size.extractLsb' 8 8) (size.extractLsb' 0 8)) (word16 (quota.extractLsb' 8 8) (quota.extractLsb' 0 8))) = _
    rw [word24_split, word16_split, word16_split])

theorem setBatchSize (p : PortNum) (slot : Byte) (size : Word) :
    Statement (.setBatchSize p slot size) :=
  of_some rfl rfl (fun _ => rfl) (by
    show some (Instr.setBatchSize p slot (word16 (size.extractLsb' 8 8) (size.extractLsb' 0 8))) = _
    rw [word16_split])

theorem switchJob (p : PortNum) (slot : Byte) : Statement (.switchJob p slot) :=
  of_some rfl rfl (fun _ => rfl) rfl

theorem readJob (p : PortNum) (slot : Byte) : Statement (.readJob p slot) :=
  of_some rfl rfl (fun _ => rfl) rfl

theorem readOpen (p : PortNum) : Statement (.readOpen p) :=
  of_some rfl rfl (fun _ => rfl) rfl

theorem closeBatch (p : PortNum) : Statement (.closeBatch p) :=
  of_some rfl rfl (fun _ => rfl) rfl

theorem readBatch (p : PortNum) (entry : Byte) : Statement (.readBatch p entry) :=
  of_some rfl rfl (fun _ => rfl) rfl

theorem popBatch (p : PortNum) : Statement (.popBatch p) :=
  of_some rfl rfl (fun _ => rfl) rfl

theorem setEvents (p : PortNum) (events : Word) :
    Statement (.setEvents p events) :=
  of_some rfl rfl (fun _ => rfl) (by
    show some (Instr.setEvents p (word16 (events.extractLsb' 8 8) (events.extractLsb' 0 8))) = _
    rw [word16_split])

theorem readEvents (p : PortNum) : Statement (.readEvents p) :=
  of_some rfl rfl (fun _ => rfl) rfl

theorem clearEvents (p : PortNum) (events : Word) :
    Statement (.clearEvents p events) :=
  of_some rfl rfl (fun _ => rfl) (by
    show some (Instr.clearEvents p (word16 (events.extractLsb' 8 8) (events.extractLsb' 0 8))) = _
    rw [word16_split])

end Sys2Proof.Laws.WireFormat
end

