-- ==== Sys2Proof/Tests/Slice0.lean ====
section
/-! SUPPORT. Tests: ill-formed terms that the check refuses, wire bytes written out from spec/10 Table 10-2, one or two
steps for each command with results taken from the manual's tables and worked sequences, and a witness for the hypotheses
of each statement. -/

namespace Sys2Proof.Tests

open Sys2Proof Sys2Proof.Machine

/-! ## States -/

/-- The part after INIT. -/
def ready : State := { State.reset with bti := .idle }

/-- The part with the phase SYNCED and the line moving forward, at a cycle and a count. -/
def running (cycle : Word) (mc : Nat) : State :=
  { ready with phu := { ready.phu with phase := .synced, lastDir := some .forward, cycle := cycle, mc := mc } }

/-- A blank of the tape, not counted. -/
def blank (serial : Word) : Record :=
  { serial := serial, birth := serial.toNat, place := .inLine, kind := .blank, job := 0,
    results := ⟨.none, .none, .none, .none, .none, .none⟩, reject := none, further := false, hold := false,
    route := .stream, cls := .uncounted, batch := none, batchEnd := false, note := 0 }

/-- The part with a record put into its slot. -/
def holding (r : Record) (s : State) : State :=
  { s with ttb := { s.ttb with slots := s.ttb.slots.put (slotOf r.serial) (some r), births := 70000 } }

/-- The part with a port's window and mask set. -/
def station (p : PortNum) (w : Window) (mask : BitVec 10) (s : State) : State :=
  s.modPort p fun q => { q with window := w, mask := mask }

/-- The part with a change in its open batch. -/
def counting (f : OpenBatch → OpenBatch) (s : State) : State := s.modOpen f

/-- The state a command answers. -/
def after (c : Instr) (s : State) : State :=
  match exec c s with
  | .next t => t
  | .fault _ => s
  | .refused _ => s

/-- The part with the write address of a port acknowledged. -/
def addressed (p : PortNum) (s : State) : State := { s with bti := .code p }

/-- The response in a port's buffer. -/
def response (p : PortNum) (s : State) : Response := (s.ports.get p).response

/-- A queued batch record with a number. -/
def queued (n : Nat) : BatchRecord := (OpenBatch.fresh (BitVec.ofNat 16 n) 0 100).close 0 true false 0

/-- The part with a queue of `n` entries below the open batch. -/
def queueOf (n : Nat) (s : State) : State :=
  s.modBfu fun b => { b with queue := (List.range n).map queued, openBatch := { b.openBatch with number := BitVec.ofNat 16 n } }

/-! ## The well-formedness check refuses what no transaction can carry -/

theorem test_refuses_eleven_entries :
    (Instr.writeRec 0 0 (List.replicate 11 ⟨9, 0⟩)).wellFormed = false
      ∧ (Instr.writeRec 0 0 (List.replicate 10 ⟨9, 0⟩)).wellFormed = true := by decide

theorem test_refuses_eleven_entries_by_serial :
    (Instr.writeRecSer 0 0 (List.replicate 11 ⟨9, 0⟩)).wellFormed = false
      ∧ (Instr.writeRecSer 0 0 (List.replicate 10 ⟨9, 0⟩)).wellFormed = true := by decide

theorem test_refuses_unknown_of_a_known_code :
    (Instr.unknownCmd 2 0x72).wellFormed = false ∧ (Instr.unknownCmd 2 0x5F).wellFormed = true := by decide

theorem test_refuses_short_without_operands :
    (Instr.short 4 0x10).wellFormed = false ∧ (Instr.short 4 0x5F).wellFormed = false
      ∧ (Instr.short 4 0x34).wellFormed = true := by decide

/-! ## Wire bytes written out from Table 10-2 -/

/-- 10.9.1, with its surplus byte. -/
theorem test_wire_write_rec :
    (Bti.receiveAll 4 [0x33, 0x01, 0x02, 0x05, 0x01, 0x09, 0x06, 0xEE]).finish
      = some (.writeRec 4 1 [⟨5, 1⟩, ⟨9, 6⟩]) := by decide

/-- 10.9.2: cut short after the field code, and a length byte of 12. -/
theorem test_wire_short :
    (Bti.receiveAll 4 [0x34, 0x1F, 0x40, 0x01, 0x05]).finish = some (.short 4 0x34)
      ∧ (Bti.receiveAll 4 [0x34, 0x1F, 0x40, 0x0C, 0x05, 0x01]).finish = some (.short 4 0x34) := by decide

/-- 10.9.3. -/
theorem test_wire_unknown : (Bti.receiveAll 2 [0x5F, 0x00]).finish = some (.unknownCmd 2 0x5F) := by decide

theorem test_wire_set_line :
    (Bti.receiveAll 0 [0x23, 0x18, 0x14, 0x10, 0x00, 0x04]).finish = some (.setLine 0 24 20 4096 4) := by decide

theorem test_wire_set_port :
    (Bti.receiveAll 0 [0x40, 0x04, 0x00, 0x0A, 0x04, 0x02, 0x02, 0x20]).finish
      = some (.setPort 0 4 0 10 4 2 0x220) := by decide

theorem test_wire_set_job :
    (Bti.receiveAll 0 [0x60, 0x02, 0x00, 0xA1, 0xCC, 0x01, 0xF4, 0x00, 0x03]).finish
      = some (.setJob 0 2 41420 500 3) := by decide

/-- The gum valve of 6.9.1: sp 12, PRESENT_AFTER(FOLD), stamp GUM, on angle 200, TIME 2,500 µs, latency on 3,200 µs,
lead limit 2,048. -/
def gumValve : RawConfig :=
  ⟨12, 2, 6, 5, 200, 0, 1, 2500, 1, 1, 1, 1, 3200, 0, 2048, 0⟩

theorem test_wire_set_channel :
    (Bti.receiveAll 0 [0x50, 0x03, 0x0C, 0x02, 0x06, 0x05, 0x00, 0xC8, 0x00, 0x00, 0x01, 0x09, 0xC4, 0x00, 0x00, 0x00,
      0x01, 0x01, 0x00, 0x01, 0x00, 0x01, 0x0C, 0x80, 0x00, 0x00, 0x08, 0x00, 0x00, 0x00]).finish
      = some (.setChannel 0 3 gumValve) := by decide

theorem test_wire_events_and_phase :
    (Bti.receiveAll 7 [0x70, 0x00, 0x0F]).finish = some (.setEvents 7 15)
      ∧ (Bti.receiveAll 5 [0x11]).finish = some (.capture 5) := by decide

/-! ## Phase Unit -/

/-- R9: the crossing at debt 0 is an advance, which creates the record of the new cycle. -/
theorem test_forward_count_advances :
    (after (.forwardCount false true false) (running 99 4095)).phu.count = ⟨100, 0⟩
      ∧ ((after (.forwardCount false true false) (running 99 4095)).ttb.lookup 100).map Record.kind = some .blank := by
  decide

/-- 1.10.3: the forward crossing repays, and is no advance. -/
theorem test_forward_count_repays :
    let s := running 7210 4095
    let t := after (.forwardCount false true false) { s with phu := { s.phu with debt := 1 } }
    t.phu.count = ⟨7210, 0⟩ ∧ t.phu.debt = 0 := by decide

/-- 1.10.3: the backward crossing. -/
theorem test_backward_count_crosses :
    let t := after (.backwardCount false) (running 7210 0)
    t.phu.count = ⟨7210, 4095⟩ ∧ t.phu.debt = 1 ∧ t.requested 6 .reverse = true := by decide

/-- 1.10.4: the sixteenth. -/
theorem test_backward_count_overflows :
    let s := running 3000 0
    let t := after (.backwardCount false) { s with phu := { s.phu with debt := 15 } }
    t.phu.debt = 0 ∧ t.phu.cycle = 3000 ∧ t.ttb.tracking = .lost ∧ t.requested 2 .reverse = false := by decide

/-- Table 1-2, mc 4,093 and 9. -/
theorem test_index_edge_early_and_late :
    (after (.indexEdge true false) (running 812 4093)).phu.count = ⟨813, 0⟩
      ∧ (after (.indexEdge true false) (running 812 4093)).ttb.tracking = .ready
      ∧ (after (.indexEdge true false) (running 812 9)).phu.count = ⟨812, 0⟩
      ∧ (after (.indexEdge true false) (running 812 9)).ttb.tracking = .lost := by decide

/-- 2.11.4: at mc 4,080 the edge's own advance creates 901, which is then rejected with LOST. -/
theorem test_index_edge_slip :
    let s := holding { blank 890 with reject := some (.fault .gum) } (running 900 4080)
    let t := after (.indexEdge true false) s
    (t.ttb.lookup 901).map Record.reject = some (some .lost)
      ∧ (t.ttb.lookup 890).map (fun r => (r.reject, r.further)) = some (some (.fault .gum), true) := by decide

/-- R10, R11: four windows of 102, 103, 102 and 103 counts. -/
theorem test_speed_window_end :
    let s : State := { ready with phu := { ready.phu with sum := 102, windows := ⟨103, 102, 103, 77⟩ } }
    (after .speedWindowEnd s).phu.speed = 410 ∧ (after .speedWindowEnd s).phu.sum = 0 := by decide

/-! ## Resets and INIT -/

theorem test_power_on_reset :
    let t := after (.powerOnReset ⟨2, true, false, true⟩) (running 500 77)
    t.phu.p = 4096 ∧ t.phu.cycle = 0 ∧ t.bti = .init ∧ t.straps.addr = 2 := by decide

/-- R170: a transaction in progress is abandoned, and no buffer is replaced. -/
theorem test_rst_abandons :
    let t := after (.rst ⟨0, false, false, false⟩) { ready with bti := .operands 4 0x33 [1] }
    t.bti = .init ∧ response 4 t = ⟨.nothing, 0, []⟩ := by decide

theorem test_init_end : (after .initEnd State.reset).bti = .idle := by decide

/-! ## The bus -/

/-- 10.9.1: address 0x24 with the straps at 0 is port 4. -/
theorem test_reference_cycle_latch :
    let t := after (.referenceCycleLatch 0x24) (running 8011 5)
    (t.ports.get 4).reference = 8011 ∧ t.bti = .code 4 ∧ (t.ports.get 3).reference = 0 := by decide

theorem test_foreign_address_is_not_acknowledged :
    (after (.referenceCycleLatch 0x28) (running 8011 5)).ports = (running 8011 5).ports := by decide

/-- R177: the three header bytes, then 0xFF. -/
theorem test_read_transaction :
    (after (.readTransaction 0x20 5) (after (.resync 0) ready)).sda = [0x00, 0x22, 0x00, 0xFF, 0xFF] := by decide

/-- 10.9.3. -/
theorem test_unknown_cmd : response 2 (after (.unknownCmd 2 0x5F) ready) = ⟨.unknownCmd, 0x5F, []⟩ := by decide

theorem test_short : response 4 (after (.short 4 0x34) ready) = ⟨.short, 0x34, []⟩ := by decide

/-! ## Phase commands -/

/-- Table 10-7: cycle, mc, S, debt, SYNCED, P 4,096, T 4 and missing 1. -/
theorem test_read_phase :
    let s := running 0x1234 0x0102
    response 3 (after (.readPhase 3) { s with phu := { s.phu with speed := -2, missing := 1 } })
      = ⟨.ok, 0x10, [0x12, 0x34, 0x01, 0x02, 0xFF, 0xFE, 0x00, 0x01, 0x10, 0x00, 0x44]⟩ := by decide

theorem test_capture_is_the_ports_own :
    let t := after (.capture 5) (running 4001 0)
    (t.phu.snapshots.get 5).map Snapshot.cycle = some 4001 ∧ t.phu.snapshots.get 2 = none := by decide

/-- R16, 1.10.5: port 2 has never captured. -/
theorem test_read_snapshot :
    response 2 (after (.readSnapshot 2) (after (.capture 5) (running 4001 0))) = ⟨.nothing, 0x12, []⟩
      ∧ (response 5 (after (.readSnapshot 5) (after (.capture 5) (running 4001 0)))).payload.length = 120 := by decide

/-! ## Line commands -/

/-- 2.11.3: PURGE before the advance to 8,300 reaches the blank at position 19 and none at Kc. -/
theorem test_purge :
    let t := after (.purge 0) (holding (blank 8280) (holding (blank 8279) (running 8299 4000)))
    response 0 t = ⟨.ok, 0x20, [1]⟩ ∧ (t.ttb.lookup 8280).map Record.kind = some .void
      ∧ (t.ttb.lookup 8279).map Record.kind = some .blank := by decide

/-- R41: positions above L−1 are clamped; a above b is refused. -/
theorem test_reject_range :
    let t := after (.rejectRange 0 23 255) (holding (blank 77) (running 100 0))
    response 0 t = ⟨.ok, 0x21, [1]⟩ ∧ (t.ttb.lookup 77).map Record.reject = some (some .range)
      ∧ response 0 (after (.rejectRange 0 2 1) ready) = ⟨.range, 0x21, []⟩ := by decide

theorem test_resync :
    (after (.resync 0) { ready with ttb := { ready.ttb with tracking := .lost } }).ttb.tracking = .ready := by decide

/-- R13, R42, R43: T clamped, a changed P unsynchronises, L 1 refused. -/
theorem test_set_line :
    let t := after (.setLine 0 48 47 256 200) (running 500 9)
    t.ttb.l = 48 ∧ t.ttb.kc = 47 ∧ t.phu.p = 256 ∧ t.phu.t = 63 ∧ t.phu.phase = .unsynced ∧ t.phu.cycle = 500
      ∧ response 0 (after (.setLine 0 1 1 256 0) ready) = ⟨.range, 0x23, []⟩ := by decide

theorem test_read_line :
    response 6 (after (.readLine 6) (holding (blank 499) (running 500 9)))
      = ⟨.ok, 0x24, [24, 20, 0, 0x01, 0xF4, 1]⟩ := by decide

/-! ## Record access -/

/-- 3.11.1: index 1 of the patcher's window at reference 7,001 is serial 6,992. -/
theorem test_read_rec :
    let s := holding (blank 6992) (station 3 ⟨8, 3, .up, .readWrite⟩ 0 (running 7001 0))
    ((response 3 (after (.readRec 3 1) s)).payload.drop 4).take 2 = [0x1B, 0x50]
      ∧ (response 3 (after (.readRec 3 1) s)).status = .ok := by decide

/-- 3.11.1: serial 6,900 at reference 7,002 is position 102, outside the window. -/
theorem test_read_rec_ser :
    let s := station 3 ⟨8, 3, .up, .readWrite⟩ 0 (running 7002 0)
    ((after (.readRecSer 3 6900) s).ports.get 3).fault
      = .frozen false ⟨.window, 0x31, none, some 102, some 6900, 7002⟩ := by decide

/-- 4.6.1: entries 2 and 3 are UNKNOWN. -/
theorem test_read_window :
    let s := holding (blank 501) (holding (blank 502) (station 1 ⟨0, 4, .up, .readWrite⟩ 0 (running 502 0)))
    let x := (response 1 (after (.readWindow 1) s)).payload
    x.length = 53 ∧ (x.drop 5).take 2 = [0x01, 0xF6] ∧ x.drop 29 = List.replicate 24 0 := by decide

/-- 4.6.4, rows 2 and 1: HOLD outside the mask, and a field named twice. -/
theorem test_write_rec :
    let r : Record := { blank 8000 with results := ⟨.none, .none, .none, .done, .none, .none⟩ }
    let s := holding r (station 4 ⟨10, 4, .up, .readWrite⟩ 0x220 (running 8011 0))
    response 4 (after (.writeRec 4 1 [⟨5, 1⟩, ⟨9, 6⟩, ⟨8, 1⟩]) s)
        = ⟨.masked, 0x33, [0x1F, 0x40, 0x1F, 0x4B, 0x01, 0x00, 0x00, 0x00]⟩
      ∧ response 4 (after (.writeRec 4 1 [⟨9, 5⟩, ⟨9, 6⟩]) s) = ⟨.range, 0x33, [0x1F, 0x40, 0x1F, 0x4B]⟩ := by decide

/-- 4.6.1: a serial one later than the reference cycle is a WINDOW fault at position 65,535. -/
theorem test_write_rec_ser :
    let s := station 1 ⟨0, 4, .up, .readWrite⟩ 0x007 (running 503 0)
    let t := after (.writeRecSer 1 504 [⟨0, 1⟩]) s
    (t.ports.get 1).fault = .frozen false ⟨.window, 0x34, none, some 65535, some 504, 503⟩
      ∧ t.requested 1 .fault = true ∧ t.requested 0 .fault = false := by decide

/-! ## Port commands -/

theorem test_set_port :
    let t := after (.setPort 0 5 0 19 4 6 0x283) ready
    (t.ports.get 5).window = ⟨19, 4, .down, .readWrite⟩ ∧ (t.ports.get 5).mask = 0x283
      ∧ response 0 (after (.setPort 0 8 0 19 4 6 0x283) ready) = ⟨.range, 0x40, []⟩ := by decide

theorem test_read_port : response 3 (after (.readPort 3 0) ready) = ⟨.ok, 0x41, [0, 3, 0, 16, 1, 0, 0, 0]⟩ := by decide

/-- 3.11.1: the write of index 3 in a window of length 3, read back. -/
theorem test_read_fault :
    let s := after (.writeRec 3 3 [⟨4, 1⟩]) (station 3 ⟨8, 3, .up, .readWrite⟩ 0x210 (running 7000 0))
    response 0 (after (.readFault 0 3) s) = ⟨.ok, 0x42, [3, 1, 3, 0x33, 1, 3, 0, 0, 0, 0, 0x1B, 0x58]⟩ := by decide

theorem test_clear_fault :
    let s := after (.purge 3) ready
    ((after (.clearFault 3) s).ports.get 3).fault = .clear ∧ (after (.clearFault 3) s).requested 3 .fault = true := by
  decide

/-- R70: a port that resets itself finds NONE. -/
theorem test_port_reset :
    response 3 (after (.portReset 3 3) (after (.readPhase 3) ready)) = ⟨.nothing, 0, []⟩
      ∧ response 0 (after (.portReset 0 3) ready) = ⟨.ok, 0x44, []⟩ := by decide

/-! ## Channels -/

/-- Table 6-1. -/
theorem test_lead_table :
    leadOf 1 2000 20000 = 1 ∧ leadOf 409 20000 20000 = 2045 ∧ leadOf 410 3200 20000 = 328 ∧ leadOf (-200) 20000 20000 = 0 := by
  decide

/-- The part at 6.9.1's arming: cycle 5,000, mc 3,500, S 410. -/
def gumLine : State :=
  let s := running 5000 3500
  { s with phu := { s.phu with speed := 410 } }

/-- 6.9.1: lead 328, Ct 5,001, A_on at cycle 5,000, mc 3,968. -/
theorem test_enable_channel_arms :
    let ch := (after (.enableChannel 0 3) (after (.setChannel 0 3 gumValve) gumLine)).chans.get 3
    ch.state.latch.map Latch.onLead = some 328 ∧ ch.state.latch.map Latch.ct = some 5001
      ∧ ch.state.latch.any (fun l => l.aOn == 5000 * 4096 + 3968) = true := by decide

/-- 5.14.3: TIME_LONG on channel 8 claims channel 9, which is then refused. -/
theorem test_set_channel_claims_the_partner :
    let long : RawConfig := ⟨0, 0, 0, 0xFF, 0, 0, 2, 0, 50000, 0, 0, 0, 0, 0, 0, 0⟩
    let s := after (.setChannel 0 8 long) ready
    (s.chans.get 9).state = .claimed ∧ (response 0 (after (.setChannel 0 9 gumValve) s)).status = .busy := by decide

/-- A pulse of channel 3 for Ct 5,001 that has stamped GUM on serial 4,989. -/
def gumPulse : Channel :=
  { Channel.reset with
    state := .on ⟨5001, 328, 0, 5000 * 4096 + 3968, none⟩
      ⟨⟨4989, some 4989⟩, some (.result .gum), 0, some ⟨2500, 50000⟩⟩
    due := some 5002 }

/-- 2.11.2: the cut reverses the stamp. -/
theorem test_disable_channel_cuts :
    let s := (holding { blank 4989 with results := ⟨.none, .none, .none, .done, .done, .none⟩ } gumLine).modChan 3
      fun _ => gumPulse
    let t := after (.disableChannel 0 3) s
    (t.ttb.lookup 4989).map (fun r => (r.results.gum, r.reject)) = some (.fault, some (.fault .gum))
      ∧ (t.chans.get 3).state = .disabled ∧ t.requested 1 .channel = true := by decide

/-- 11.4.1: the line goes back over 12,400 and returns: channel 6's pulse of 12,399 is cut, and both channels arm for
12,400. -/
theorem test_inhibition_returns :
    let s := ((running 12400 0).modChan 6 fun _ => { Channel.reset with
        config := { ChanConfig.reset with onAngle := 2754 }
        state := .on ⟨12399, 0, 0, 12399 * 4096 + 2754, none⟩ ⟨⟨12380, none⟩, none, 0, none⟩ }).modChan 11 fun _ =>
      { Channel.reset with
        config := { ChanConfig.reset with onAngle := 300 }
        state := .armed ⟨12400, 0, 0, 12400 * 4096 + 300, none⟩ }
    let t := after (.forwardCount false true false) (after (.backwardCount false) s)
    (t.chans.get 6).state.target = 12400 ∧ (t.chans.get 11).state.target = 12400 ∧ (t.chans.get 6).overruns = 0 := by
  decide

/-- R91, R116: channel 2 had served 3,000 at on angle 5 and armed for 3,001, and channel 4's pulse of 3,000 is cut; neither
serves 3,000 again. -/
theorem test_inhibition_repeats_nothing :
    let c : ChanConfig := { ChanConfig.reset with onAngle := 5 }
    let s := ((running 3000 0).modChan 2 fun _ => { Channel.reset with
        config := c, state := .armed ⟨3001, 0, 0, 3001 * 4096 + 5, none⟩ }).modChan 4 fun _ => { Channel.reset with
      config := c, state := .on ⟨3000, 0, 0, 3000 * 4096 + 5, none⟩ ⟨⟨3000, none⟩, none, 0, none⟩ }
    let t := after (.forwardCount false true false) (after (.backwardCount false) s)
    (c.latch 4096 0 ⟨3000, 0⟩).ct = 3000 ∧ (t.chans.get 2).state.target = 3001 ∧ (t.chans.get 4).state.target = 3001 := by
  decide

/-- The channel, ON, nothing pending; after both configurations the target cycle, the leads and A_on. -/
theorem test_read_channel :
    let t := after (.readChannel 4 3) (gumLine.modChan 3 fun _ => gumPulse)
    (response 4 t).payload.take 3 = [3, 3, 0]
      ∧ ((response 4 t).payload.drop 59).take 6 = [0x13, 0x89, 0x01, 0x48, 0x00, 0x00] := by decide

/-- 6.9.3: at 800 µs the first dot expires with two dots still to begin. -/
theorem test_timer_expiry_of_a_dot :
    let ch : Channel := { Channel.reset with
      config := { ChanConfig.reset with mode := .dots, dotCount := 3, dot := 800, gap := 400 }
      state := .on ⟨10, 0, 0, 0, none⟩ ⟨⟨10, none⟩, none, 2, some ⟨800, 1⟩⟩ }
    ((after (.timerExpiry 2) (gumLine.modChan 2 fun _ => ch)).chans.get 2).state
      = .gap ⟨10, 0, 0, 0, none⟩ ⟨⟨10, none⟩, none, 2, some ⟨400, 8000⟩⟩ := by decide

/-- 5.14.3: the pulse ends at cycle 1,001, mc 1,024; Ct is 1,002 and one overrun is counted. -/
theorem test_timer_expiry_overruns :
    let ch : Channel := { Channel.reset with
      config := { ChanConfig.reset with mode := .timeLong, longDuration := 50000 }
      state := .on ⟨1000, 0, 0, 4096000, none⟩ ⟨⟨1000, none⟩, none, 0, some ⟨50000, 1⟩⟩
      due := some 1001 }
    let t := after (.timerExpiry 8) ((running 1001 1024).modChan 8 fun _ => ch)
    (t.chans.get 8).state.target = 1002 ∧ (t.chans.get 8).overruns = 1 ∧ t.requested 0 .channel = true := by decide

/-! ## Jobs and batches -/

/-- 8.6.1: the slot as it is answered. -/
theorem test_set_job :
    response 0 (after (.setJob 0 2 41420 500 3) ready)
      = ⟨.ok, 0x60, [2, 1, 0, 0x00, 0xA1, 0xCC, 0x01, 0xF4, 0, 0, 0, 3, 0, 0]⟩
      ∧ response 0 (after (.setJob 0 0 1 1 0) ready) = ⟨.busy, 0x60, []⟩ := by decide

theorem test_set_batch_size :
    ((after (.setBatchSize 0 0 60000) ready).bfu.jobs.get 0).next = some 50000
      ∧ response 0 (after (.setBatchSize 0 1 250) ready) = ⟨.range, 0x61, []⟩ := by decide

theorem test_switch_job :
    let t := after (.switchJob 0 2) (after (.setJob 0 2 41420 500 3) ready)
    t.bfu.cutJob = 2 ∧ response 0 t = ⟨.ok, 0x62, [0, 2]⟩ := by decide

theorem test_read_job :
    response 5 (after (.readJob 5 0) ready) = ⟨.ok, 0x63, [0, 13, 0, 0, 0, 0, 0, 100, 0, 0, 0, 0, 0, 0]⟩ := by decide

theorem test_read_open :
    response 5 (after (.readOpen 5) ready)
      = ⟨.ok, 0x64, [0, 0, 0, 0, 100, 0, 0, 0, 0, 0, 0, 0, 0, 0, 0, 0, 0, 0, 0, 0, 0, 0]⟩ := by decide

/-- 7.9.3: a close after the POP carries FORCED and OVERSIZE, with batch end on 5,301. -/
theorem test_close_batch :
    let s := holding (blank 5301) (counting (fun o => { o with
      good := 101, closePending := true, oversize := true, lastInStack := some ⟨5301, some 5301⟩ }) (running 5321 9))
    let t := after (.closeBatch 0) s
    t.bfu.queue.map (fun b => (b.forced, b.oversize, b.short, b.good)) = [(true, true, false, 101)]
      ∧ (t.ttb.lookup 5301).map Record.batchEnd = some true := by decide

/-- 8.6.2: entry 10 of ten is refused, entry 0 answered with the count. -/
theorem test_read_batch :
    response 7 (after (.readBatch 7 10) (queueOf 10 ready)) = ⟨.range, 0x66, []⟩
      ∧ (response 7 (after (.readBatch 7 0) (queueOf 10 ready))).payload.take 1 = [10] := by decide

/-- R156: the queue falls from 16 to 15 and the full spell ends. -/
theorem test_pop_batch :
    let t := after (.popBatch 0) ((queueOf 16 ready).modBfu fun b => { b with qfull := true })
    t.bfu.queue.length = 15 ∧ t.bfu.qfull = false ∧ (response 0 t).payload.take 3 = [15, 0, 0] := by decide

/-- 7.9.2: a blank of another job closes the open batch SHORT and opens the next for its job. -/
theorem test_advance_changes_the_batch :
    let s := holding { blank 1012 with job := 3 } (counting (fun o => { o with good := 3 }) (running 1031 4095))
    let t := after (.forwardCount false true false) s
    t.bfu.queue.map BatchRecord.short = [true] ∧ t.bfu.openBatch.job = 3 ∧ t.bfu.openBatch.good = 1
      ∧ (t.ttb.lookup 1012).map (fun r => (r.cls, r.batch)) = some (.good, some 1) := by decide

/-! ## Events -/

/-- 9.5.1: the first SET_EVENTS discards BATCH and QHIGH and keeps SYNC. -/
theorem test_set_events :
    let s : State := { ready with events := ready.events.put 7 ⟨0x406, 0⟩ }
    response 7 (after (.setEvents 7 0x00F) s) = ⟨.ok, 0x70, [0x04, 0x00, 0x00, 0x0F, 0x00, 0x06]⟩
      ∧ response 7 (after (.setEvents 7 0x800) s) = ⟨.range, 0x70, []⟩ := by decide

theorem test_read_events :
    response 7 (after (.readEvents 7) { ready with events := ready.events.put 7 ⟨0x406, 0x00F⟩ })
      = ⟨.ok, 0x71, [0x04, 0x06, 0x00, 0x0F, 1]⟩ := by decide

/-- 9.5.1: clearing the common events releases the line. -/
theorem test_clear_events :
    let t := after (.clearEvents 7 0x006) { ready with events := ready.events.put 7 ⟨0x406, 0x00F⟩ }
    (t.events.get 7).request = 0x400 ∧ t.attn 7 = false := by decide

/-! ## Witnesses: for each statement with hypotheses, a state and operands that meet them, clause by clause at the ends
of its ranges -/

/-! ### The queue, time and resets -/

theorem witness_StepTakesFrontCommand :
    ({ ready with pending := [.readPhase 0, .purge 1] } : State).pending = .readPhase 0 :: [.purge 1] := rfl

theorem witness_IdleStepCountsClk : ready.pending = [] := rfl

/-- A timer in its last period, and a window in its last. -/
theorem witness_IdleStepCountsClk_due :
    let s := (running 1001 1024).modChan 3 fun _ => { gumPulse with
      state := .on ⟨5001, 328, 0, 1, none⟩ ⟨⟨4989, none⟩, none, 0, some ⟨1, 1⟩⟩ }
    s.pending = [] ∧ (s.chans.get 3).state.timer = some ⟨1, 1⟩
      ∧ 20000 ≤ ({ s with clock := ⟨19999, 0⟩ } : State).clock.window + 1 := by decide

/-- INIT in its longest last period. -/
theorem witness_IdleStepCountsClk_init :
    let s : State := { State.reset with clock := ⟨0, 4999⟩ }
    s.pending = [] ∧ s.bti = .init ∧ min Config.initPeriods 5000 ≤ s.clock.init + 1 :=
  ⟨rfl, rfl, Nat.min_le_right _ _⟩

theorem witness_ResetClearsPhaseAndTable :
    Instr.powerOnReset ⟨3, true, false, true⟩ = .powerOnReset ⟨3, true, false, true⟩
      ∨ Instr.powerOnReset ⟨3, true, false, true⟩ = .rst ⟨3, true, false, true⟩ := by decide

theorem witness_ResetClearsPortsChannelsBatches :
    Instr.rst ⟨3, true, false, true⟩ = .powerOnReset ⟨3, true, false, true⟩
      ∨ Instr.rst ⟨3, true, false, true⟩ = .rst ⟨3, true, false, true⟩ := by decide

/-! ### The bus -/

theorem witness_InitTakesNoTransaction :
    State.reset.bti = .init ∧ (Instr.popBatch 7).onBus = true ∧ (Instr.referenceCycleLatch 0x20).onBus = true
      ∧ ready.bti ≠ .init := by decide

theorem witness_WireFormsRoundTrip :
    let c : Instr := .writeRec 7 255 (List.replicate 10 ⟨9, 255⟩)
    c.wellFormed = true
      ∧ wireBytes c = some (7, [0x33, 255, 10] ++ (List.replicate 10 [9, 255]).flatten) := by decide

/-- Table 10-1: the bytes of a whole SET_EVENTS are acknowledged, a surplus byte is not; an unknown code and a length byte
above 10 are not, nor what follows them. -/
theorem test_wire_acknowledge :
    ((Bti.receiveAll 7 []).receive 0x70).2 = true ∧ ((Bti.receiveAll 7 [0x70, 0x00]).receive 0x0F).2 = true
      ∧ ((Bti.receiveAll 7 [0x70, 0x00, 0x0F]).receive 0x00).2 = false
      ∧ ((Bti.receiveAll 2 []).receive 0x5F).2 = false ∧ ((Bti.receiveAll 2 [0x5F]).receive 0x10).2 = false
      ∧ ((Bti.receiveAll 4 [0x33, 0x01]).receive 0x0A).2 = true ∧ ((Bti.receiveAll 4 [0x33, 0x01]).receive 0x0B).2 = false
      ∧ ((Bti.receiveAll 4 [0x33, 0x01, 0x0B]).receive 0x00).2 = false := by decide

theorem witness_BrokenTransactionsAreRefused :
    (Instr.setEvents 7 15).wellFormed = true ∧ wireBytes (.setEvents 7 15) = some (7, 0x70 :: ([0x00] ++ [0x0F]))
      ∧ ([0x0F] : List Byte) ≠ [] ∧ knownCode 0xFF = false ∧ 10 < (11 : Byte).toNat := by decide

theorem witness_RefusedTransactionsAnswer : ready.bti ≠ .init := by decide

/-- Both ends of the block at 0x68, and the addresses beside it. -/
theorem witness_WriteAddressLatches :
    let s : State := { ready with straps := ⟨3, false, false, false⟩ }
    s.bti ≠ .init ∧ ([0x20, 0x28, 0x60, 0x68] : List Nat)[s.straps.addr.toNat]? = some 0x68
      ∧ (0x68 : BitVec 7).toNat = 0x68 + (0 : PortNum).val ∧ (0x6F : BitVec 7).toNat = 0x68 + (7 : PortNum).val
      ∧ (0x67 : BitVec 7).toNat < 0x68 ∧ 0x68 + 7 < (0x70 : BitVec 7).toNat
      ∧ (Instr.readPhase 7).port = some 7 ∧ s.bti ≠ .code 7 := by decide

theorem witness_ReadTransactionSendsBuffer :
    ready.bti ≠ .init ∧ ([0x20, 0x28, 0x60, 0x68] : List Nat)[ready.straps.addr.toNat]? = some 0x20
      ∧ (0x27 : BitVec 7).toNat = 0x20 + (7 : PortNum).val ∧ 2 < 3 := by decide

/-! ### The Phase Unit -/

theorem witness_CountsInsideTheCycle :
    let s := running 10 4094
    s.phu.mc < s.phu.p ∧ s.phu.mc + 1 < s.phu.p
      ∧ (∀ k, (s.chans.get k).atPoint s.phu.p ⟨s.phu.cycle, s.phu.mc + 1⟩ = false) := by decide

theorem witness_CountsInsideTheCycle_backward :
    let s := running 10 1
    0 < s.phu.mc ∧ (∀ k, (s.chans.get k).state.phase = .on →
      (s.chans.get k).atPoint s.phu.p ⟨s.phu.cycle, s.phu.mc - 1⟩ = false) := by decide

/-- Channel 3 armed for the point its configuration gives, and an ANGLE pulse whose off point stands there too. -/
def atPointLine (mc : Nat) : State :=
  ((running 5000 mc).modChan 3 fun _ => { Channel.reset with
      state := .armed ⟨5000, 0, 0, 5000 * 4096 + 3968, none⟩ }).modChan 5 fun _ => { Channel.reset with
    state := .on ⟨5000, 0, 0, 5000 * 4096 + 3967, some (5000 * 4096 + 3968)⟩ ⟨⟨5000, none⟩, none, 0, none⟩ }

theorem witness_CountsInsideTheCycle_points :
    let s := atPointLine 3967
    let u := atPointLine 3969
    s.phu.phase = .synced ∧ s.phu.debt = 0 ∧ s.phu.mc + 1 < s.phu.p
      ∧ (s.chans.get 3).atPoint s.phu.p ⟨s.phu.cycle, s.phu.mc + 1⟩ = true
      ∧ (s.chans.get 5).atPoint s.phu.p ⟨s.phu.cycle, s.phu.mc + 1⟩ = true
      ∧ 0 < u.phu.mc ∧ (u.chans.get 5).atPoint u.phu.p ⟨u.phu.cycle, u.phu.mc - 1⟩ = true
      ∧ (running 5000 4095).phu.mc + 1 = (running 5000 4095).phu.p := by decide

/-- R1 from the state in which both channels are low: ENC_A rises first on the way forward, ENC_B on the way back, and after a
change to the opposite state the count goes on from there. -/
theorem witness_CountsInsideTheCycle_quadrature :
    Quad.step ⟨false, false⟩ .forward false = ⟨true, false⟩ ∧ Quad.step ⟨false, false⟩ .backward false = ⟨false, true⟩
      ∧ Quad.step ⟨false, false⟩ .forward true = ⟨false, true⟩ ∧ Quad.decode ⟨false, false⟩ ⟨true, true⟩ = none := by
  decide

theorem witness_CountsInsideTheCycle_unsynced : ready.phu.mc < ready.phu.p ∧ ready.phu.phase = .unsynced := by decide

/-- The part SYNCED at a count with a debt and a missing-index counter. -/
def owing (mc debt missing : Nat) : State :=
  let s := running 3000 mc
  { s with phu := { s.phu with debt := debt, missing := missing } }

theorem witness_ReverseDebtTable :
    (owing 0 15 0).phu.phase = .synced ∧ (owing 0 15 0).phu.debt ≤ 15 ∧ (owing 0 15 0).phu.mc = 0
      ∧ (owing 0 0 0).phu.debt = 0 ∧ 0 < (owing 0 14 0).phu.debt ∧ (owing 0 14 0).phu.debt < 15
      ∧ (owing 4095 1 0).phu.mc + 1 = (owing 4095 1 0).phu.p ∧ 0 < (owing 4095 1 0).phu.debt
      ∧ 1 < (owing 4095 2 0).phu.debt := by decide

theorem witness_ReverseDebtTable_ends :
    let s := after (.enableChannel 0 3) (owing 4095 1 0)
    let u := after (.enableChannel 0 3) (owing 0 15 0)
    (s.chans.get 3).state = .waiting ∧ s.phu.phase = .synced ∧ s.phu.mc + 1 = s.phu.p ∧ s.phu.debt = 1
      ∧ (u.chans.get 3).state = .waiting ∧ u.phu.mc = 0 ∧ u.phu.debt = 15 := by decide

/-- A bound that lies after the cycle R92 gives, one at the edge of its range, and one long behind. -/
theorem witness_ReverseDebtTable_bounds :
    let ct := (ChanConfig.latch { ChanConfig.reset with onAngle := 5 } 4096 0 ⟨3000, 0⟩).ct
    ct = 3000 ∧ ((3001 : Word) - ct).toNat ≤ 2 ∧ ((3002 : Word) - ct).toNat ≤ 2 ∧ 2 < ((2999 : Word) - ct).toNat := by
  decide

/-- The line at mc 0, stopped: channel 3 has stamped GUM on a counted blank, channel 8 has a TIME_LONG pulse and a
configuration held that leaves TIME_LONG, so that 9 is CLAIMED, and channel 15 is ARMED. -/
def pulsedLine : State :=
  let pulse : Pulse := ⟨⟨5000, none⟩, none, 0, some ⟨50000, 7⟩⟩
  let s := holding { blank 4989 with cls := .good, batch := some 0 } (running 5000 0)
  let s := (s.modChan 3 fun _ => { Channel.reset with
      state := .on ⟨5000, 328, 0, 5000 * 4096 - 128, none⟩ ⟨⟨4989, some 4989⟩, some (.result .gum), 0, some ⟨1, 9⟩⟩ })
  let s := (s.modChan 8 fun _ => { Channel.reset with
    config := { ChanConfig.reset with mode := .timeLong, longDuration := 50000, onAngle := 4095 }
    pending := some { ChanConfig.reset with leadLimit := 4095 }
    state := .on ⟨5000, 0, 0, 5000 * 4096, none⟩ pulse, due := some 5001 }).modChan 9 fun ch => { ch with state := .claimed }
  s.modChan 15 fun ch => { ch with state := .armed ⟨5000, 0, 0, 5000 * 4096 + 5, none⟩, due := some 5000 }

theorem pulsedLine_configs : ∀ k, ∀ c ∈ (pulsedLine.chans.get k).config :: (pulsedLine.chans.get k).pending.toList,
    c.sp < pulsedLine.ttb.l ∧ c.onAngle < pulsedLine.phu.p ∧ c.leadLimit < pulsedLine.phu.p ∧ c.latencyOn ≤ 20000
      ∧ c.latencyOff ≤ 20000 ∧ c.minSpeed ≤ 32767 ∧ c.modeOk pulsedLine.phu.p false = true := by decide

theorem pulsedLine_channelsOk : pulsedLine.ChannelsOk := by
  have ok : ∀ k, ∀ c ∈ (pulsedLine.chans.get k).config :: (pulsedLine.chans.get k).pending.toList,
      c.Ok pulsedLine.ttb.l pulsedLine.phu.p := fun k c h =>
    have ⟨a, b, d, e, f, g, m⟩ := pulsedLine_configs k c h
    ⟨a, b, d, e, f, g, m⟩
  refine ⟨fun k => ⟨ok k _ (by simp), fun c h => ⟨ok k c (by simp [h]), ?_⟩, fun x h => ?_, ?_⟩,
    by decide, by decide, by decide, by decide, by decide, by decide⟩
  · exact (by decide : ∀ k, ∀ _c ∈ (pulsedLine.chans.get k).pending,
      (pulsedLine.chans.get k).state.pulse.isSome = true) k c h
  · exact (by decide : ∀ k, ∀ x ∈ (pulsedLine.chans.get k).state.latch,
      x.onLead ≤ (pulsedLine.chans.get k).config.leadLimit ∧ x.offLead ≤ (pulsedLine.chans.get k).config.leadLimit) k x h
  · revert k; decide

/-- Every state of a channel that inhibition finds, a CLAIMED one that is released among them. -/
theorem witness_ReverseDebtTable_cuts :
    pulsedLine.phu.phase = .synced ∧ pulsedLine.phu.mc = 0 ∧ pulsedLine.phu.debt = 0 ∧ pulsedLine.ChannelsOk
      ∧ (pulsedLine.chans.get 3).state.pulse.isSome = true ∧ (pulsedLine.chans.get 9).state = .claimed
      ∧ (pulsedLine.chans.get 8).pending.map ChanConfig.mode = some .time
      ∧ (pulsedLine.chans.get 15).state.phase = .armed ∧ (pulsedLine.chans.get 0).state = .disabled :=
  ⟨by decide, by decide, by decide, pulsedLine_channelsOk, by decide, by decide, by decide, by decide, by decide⟩

theorem witness_MissingIndexCounter :
    (owing 4095 0 1).phu.phase = .synced ∧ (owing 4095 0 1).phu.mc < (owing 4095 0 1).phu.p
      ∧ (owing 2048 0 1).phu.mc < (owing 2048 0 1).phu.p ∧ (owing 4095 0 1).phu.missing ≤ 2
      ∧ (owing 4095 0 1).phu.mc + 1 = (owing 4095 0 1).phu.p ∧ (owing 0 0 2).phu.mc = 0
      ∧ (owing 2048 0 1).phu.lastDir = some .forward ∧ (owing 2048 0 1).phu.p ≤ 2 * (owing 2048 0 1).phu.mc
      ∧ (owing 2048 0 1).phu.missing = 1 := by decide

theorem witness_FirstIndexSynchronises :
    let s : State := { ready with phu := { ready.phu with lastDir := some .forward } }
    ready.phu.lastDir ≠ some .forward ∧ s.phu.lastDir = some .forward ∧ s.phu.phase = .unsynced ∧ s.phu.debt = 0
      ∧ (s.chans.get 15).state ≠ .waiting ∧ ((after (.enableChannel 0 15) s).chans.get 15).state = .waiting
      ∧ (after (.enableChannel 0 15) s).phu.lastDir = some .forward := by decide

/-- A WAITING channel whose pulse of the standing cycle a change of P has cut, and a second channel that waits. -/
theorem witness_FirstIndexSynchronises_cut :
    let s := { ready with phu := { ready.phu with lastDir := some .forward } }.modChan 3 fun ch =>
      { ch with state := .waiting, cut := some 0 }
    s.phu.phase = .unsynced ∧ s.phu.debt = 0 ∧ (s.chans.get 3).state = .waiting ∧ (s.chans.get 3).cut = some 0 := by
  decide

/-- An index edge that steps over both points: 30 counts early. -/
theorem witness_IndexEdgeMeasuresDistance_points :
    let s := atPointLine 4066
    let t := { s with chans := s.chans.modify 3 fun ch => { ch with
      state := .armed ⟨5000, 0, 0, 5000 * 4096 + 4090, none⟩ } }
    t.phu.phase = .synced ∧ t.phu.lastDir = some .forward ∧ t.phu.debt = 0 ∧ (4066 : Int) - 4096 < 0
      ∧ (t.chans.get 3).atPoint t.phu.p ⟨t.phu.cycle + 1, 0⟩ = true
      ∧ (t.chans.get 3).atPoint t.phu.p ⟨t.phu.cycle, 4066⟩ = false := by decide

/-- Both sides of the half cycle, and both sides of the tolerance. -/
theorem witness_IndexEdgeMeasuresDistance :
    let d (mc : Nat) : Int := if 2 * mc < 4096 then (mc : Int) else mc - 4096
    (owing 4092 0 0).phu.phase = .synced ∧ (owing 4092 0 0).phu.lastDir = some .forward ∧ (owing 4092 0 0).phu.p = 4096
      ∧ (owing 4092 0 0).phu.t = 4 ∧ d 2047 = 2047 ∧ d 2048 = -2048 ∧ d 4092 = -4 ∧ d 4091 = -5 ∧ d 0 = 0
      ∧ 0 ≤ d 5 ∧ ((4 : Nat) : Int) < |d 5| ∧ ((4 : Nat) : Int) < |d 4091| ∧ |d 4092| ≤ ((4 : Nat) : Int)
      ∧ 0 < (owing 4091 1 0).phu.debt
      ∧ (owing 4091 0 0).phu.debt = 0 := by decide

/-- An early edge, within the tolerance and beyond it, that repays the last step of debt or one of two. -/
theorem witness_IndexEdgeMeasuresDistance_repays :
    let s := after (.enableChannel 0 3) (owing 4092 1 1)
    s.phu.phase = .synced ∧ s.phu.lastDir = some .forward ∧ (4092 : Int) - 4096 < 0 ∧ s.phu.debt = 1
      ∧ (s.chans.get 3).state = .waiting ∧ |(4092 : Int) - 4096| ≤ s.phu.t ∧ s.phu.missing = 1
      ∧ (owing 4091 2 0).phu.debt = 2 ∧ ((owing 4091 2 0).phu.t : Int) < |(4091 : Int) - 4096| := by decide

theorem witness_SpeedSumsFourWindows :
    let w : Windows := ⟨32767, 0, 0, 5⟩
    w.newest = 32767 ∧ w.second = 0 ∧ w.third = 0 ∧ (0 : Int) + 32767 + 0 + 0 ≤ 32767
      ∧ 32767 < (1 : Int) + 32767 + 0 + 0 ∧ (-32769 : Int) + 0 + 0 + 0 < -32768 := by decide

theorem witness_OnlyAdvancesMoveTheCycle :
    (Instr.forwardCount false true false).isReset = false
      ∧ (after (.forwardCount false true false) (running 65535 4095)).phu.cycle ≠ (running 65535 4095).phu.cycle
      ∧ (Instr.rst ⟨0, false, false, false⟩).isReset = true := by decide

/-! ### The Tracking Table -/

theorem witness_AdvanceMovesRecords :
    let s := holding (blank 76) (holding (blank 80) (running 99 0))
    s.ttb.l ≤ 48 ∧ 1 ≤ s.ttb.kc ∧ s.ttb.kc < s.ttb.l ∧ (100 : Word) = s.phu.cycle + 1
      ∧ (76 : Word) = 100 - BitVec.ofNat 16 s.ttb.l ∧ (80 : Word) = 100 - BitVec.ofNat 16 s.ttb.kc
      ∧ (s.ttb.lookup 80).any Record.inLine = true ∧ slotOf 36 = slotOf 100 ∧ (36 : Word) ≠ 100
      ∧ slotOf 80 ≠ slotOf 100 ∧ (76 : Word) ≠ 100 - BitVec.ofNat 16 s.ttb.kc := by decide

/-- A record at Kc that brings the open batch to its size, so that its classification closes the batch, beside a line with
none at Kc and a record further on. -/
theorem witness_AdvanceMovesRecords_closes :
    let s := holding (blank 80) (counting (fun o => { o with good := 99 }) (running 99 0))
    let u := holding (blank 79) (running 99 0)
    (s.ttb.lookup (100 - BitVec.ofNat 16 s.ttb.kc)).any Record.inLine = true ∧ slotOf 80 ≠ slotOf 100
      ∧ (s.advance true false).bfu.queue.length = 1 ∧ ((s.advance true false).ttb.lookup 80).map Record.batchEnd = some true
      ∧ u.ttb.lookup (100 - BitVec.ofNat 16 u.ttb.kc) = none ∧ slotOf 79 ≠ slotOf 100 := by decide

/-- Nothing to classify, and an event that no classification raises. -/
theorem witness_AdvanceMovesRecords_unclassified :
    let s := holding { blank 80 with kind := .void } (running 99 0)
    (s.ttb.lookup (100 - BitVec.ofNat 16 s.ttb.kc)).any (fun r => r.place == .inLine && r.kind != .void) = false
      ∧ Event.sync ∉ [Event.batch, .qhigh, .qfull, .job] := by decide

theorem witness_ResultMergeRule :
    Result.none = .none ∧ (Results.get ⟨.fault, .none, .none, .none, .none, .done⟩ .cut) = .fault
      ∧ (Results.get ⟨.fault, .none, .none, .none, .none, .done⟩ .inspect) ≠ .fault
      ∧ ResultField.cut ≠ ResultField.inspect := by decide

theorem witness_RecordMarksStay :
    let s := holding { blank 90 with reject := some .range, further := true } (running 99 4095)
    (Instr.forwardCount false true false).isReset = false
      ∧ (∀ r ∈ s.ttb.lookup 90, r.birth < s.ttb.births) ∧ (s.ttb.lookup 90).isSome = true
      ∧ ((after (.forwardCount false true false) s).ttb.lookup 90).map Record.birth
          = (s.ttb.lookup 90).map Record.birth := by decide

theorem witness_PurgeMakesVoid : ready.bti ≠ .init ∧ (ready.ports.get 0).privileges.setup = true := by decide

theorem witness_RejectRangeReaches :
    let s := addressed 0 ready
    s.bti = .code 0 ∧ (s.ports.get 0).privileges.setup = true ∧ (254 : Byte).toNat < (255 : Byte).toNat
      ∧ (255 : Byte).toNat ≤ (255 : Byte).toNat := by decide

theorem witness_ResyncReturnsReady : ready.bti ≠ .init ∧ (ready.ports.get 0).privileges.setup = true := by decide

theorem witness_SetLineOutcomes_range :
    ready.bti ≠ .init ∧ (ready.ports.get 0).privileges.setup = true ∧ (1 : Byte).toNat < 2 ∧ 48 < (49 : Byte).toNat
      ∧ (0 : Byte).toNat < 1 ∧ (255 : Word).toNat < 256 ∧ 16384 < (16385 : Word).toNat
      ∧ (2 : Byte).toNat ≤ ({ ChanConfig.reset with sp := 2 } : ChanConfig).sp := by decide

theorem witness_SetLineOutcomes_taken :
    ready.bti ≠ .init ∧ (ready.ports.get 0).privileges.setup = true ∧ 2 ≤ (2 : Byte).toNat ∧ (48 : Byte).toNat ≤ 48
      ∧ 1 ≤ (1 : Byte).toNat ∧ (1 : Byte).toNat < (2 : Byte).toNat ∧ 256 ≤ (256 : Word).toNat
      ∧ (16384 : Word).toNat ≤ 16384
      ∧ (∀ j, (ready.chans.get j).config.sp < (2 : Byte).toNat ∧ ∀ c ∈ (ready.chans.get j).pending, c.sp < (2 : Byte).toNat)
      ∧ ready.phu.speed = 0
      ∧ (∀ i, ∀ r ∈ ready.ttb.slots.get i, ¬ (r.place = .inLine ∧ r.kind ≠ .void ∧ r.cls = .uncounted))
      ∧ (256 : Word).toNat ≠ ready.phu.p ∧ (4096 : Word).toNat = ready.phu.p := by decide

theorem witness_SetLineOutcomes_busy :
    let s := holding (blank 90) (running 99 5)
    gumLine.phu.speed ≠ 0
      ∧ (∃ r ∈ s.ttb.lookup 90, r.place = .inLine ∧ r.kind ≠ .void ∧ r.cls = .uncounted) := by decide

/-- The line of `pulsedLine`, stopped and with its one blank counted, takes a P that cuts its pulses. -/
theorem witness_SetLineOutcomes_cuts :
    pulsedLine.bti ≠ .init ∧ (pulsedLine.ports.get 0).privileges.setup = true ∧ pulsedLine.phu.speed = 0
      ∧ (∀ j, (pulsedLine.chans.get j).config.sp < (2 : Byte).toNat
          ∧ ∀ c ∈ (pulsedLine.chans.get j).pending, c.sp < (2 : Byte).toNat)
      ∧ (∀ i, ∀ r ∈ pulsedLine.ttb.slots.get i, ¬ (r.place = .inLine ∧ r.kind ≠ .void ∧ r.cls = .uncounted))
      ∧ (256 : Word).toNat ≠ pulsedLine.phu.p ∧ pulsedLine.ChannelsOk :=
  ⟨by decide, by decide, by decide, by decide, by decide, by decide, pulsedLine_channelsOk⟩

/-! ### Ports -/

theorem witness_PrivilegeLackIsFault :
    ready.bti ≠ .init ∧ (Instr.setChannel 7 255 gumValve).port = some 7
      ∧ (Instr.setChannel 7 255 gumValve).lacking (ready.ports.get 7).privileges = some (7, 0x50)
      ∧ (Instr.closeBatch 7).lacking (ready.ports.get 7).privileges = some (7, 0x65)
      ∧ (Instr.portReset 7 6).lacking (ready.ports.get 7).privileges = some (7, 0x44) := by decide

/-- A FROZEN port, a port without access, and a READ window for the writes. -/
theorem witness_TableChecksRefuse_access :
    let frozen := (after (.purge 3) ready).openWrite 3
    let q := (ready.openWrite 3).ports.get 3
    let r := (ready.openWrite 0).ports.get 0
    ready.bti ≠ .init ∧ (List.replicate 10 (⟨9, 0⟩ : RawEntry)).length ≤ 10 ∧ (frozen.ports.get 3).fault ≠ .clear
      ∧ q.window.access = .none ∧ q.fault = .clear ∧ r.window.access = .read ∧ r.window.access ≠ .readWrite
      ∧ r.window.length ≤ (16 : Byte).toNat ∧ r.fault = .clear := by decide

/-- An UP window over the end of a line of 24, for reads and writes: index 1 at its end, 2 outside; serials before, at its
end, and after it. -/
theorem witness_TableChecksRefuse_up :
    let s := station 4 ⟨23, 2, .up, .readWrite⟩ 0 (running 1000 0)
    let q := (s.openWrite 4).ports.get 4
    q.window.access = .readWrite ∧ q.fault = .clear ∧ q.window.direction = .up ∧ q.window.length ≤ (2 : Byte).toNat
      ∧ (1 : Byte).toNat < q.window.length ∧ s.ttb.l ≤ q.window.base + (1 : Byte).toNat
      ∧ (q.reference - (978 : Word)).toNat < q.window.base
      ∧ q.window.base + q.window.length ≤ (q.reference - (975 : Word)).toNat
      ∧ q.window.base ≤ (q.reference - (976 : Word)).toNat
      ∧ (q.reference - (976 : Word)).toNat < q.window.base + q.window.length
      ∧ s.ttb.l ≤ (q.reference - (976 : Word)).toNat := by decide

/-- A DOWN window that runs below position 0, and one beyond the line. -/
theorem witness_TableChecksRefuse_down :
    let s := station 4 ⟨47, 2, .down, .readWrite⟩ 0 (station 3 ⟨0, 2, .down, .readWrite⟩ 0 (running 1000 0))
    let low := (s.openWrite 3).ports.get 3
    let far := (s.openWrite 4).ports.get 4
    let pos (x : Word) := (far.reference - x).toNat
    low.window.access = .readWrite ∧ (1 : Byte).toNat < low.window.length ∧ low.window.direction = .down
      ∧ low.window.base < (1 : Byte).toNat ∧ far.window.direction = .down ∧ (1 : Byte).toNat ≤ far.window.base
      ∧ s.ttb.l ≤ far.window.base - (1 : Byte).toNat ∧ far.window.base < pos 952
      ∧ pos 955 + far.window.length ≤ far.window.base ∧ pos 954 ≤ far.window.base
      ∧ far.window.base < pos 954 + far.window.length ∧ s.ttb.l ≤ pos 954 := by decide

theorem witness_ReadsReachTheRecord :
    let s := holding (blank 977) (station 3 ⟨22, 2, .up, .read⟩ 0 (running 1000 0))
    let q := (s.openWrite 3).ports.get 3
    let pos := (q.reference - (977 : Word)).toNat
    s.bti ≠ .init ∧ q.window.access ≠ .none ∧ pos < s.ttb.l ∧ (1 : Byte).toNat < q.window.length
      ∧ (q.window.direction = .up → pos = q.window.base + (1 : Byte).toNat)
      ∧ (q.window.direction = .down → pos + (1 : Byte).toNat = q.window.base)
      ∧ (s.ttb.lookup 977).isSome = true ∧ (running 1000 0).ttb.lookup 977 = none := by decide

theorem witness_ReadsReachTheRecord_down :
    let s := station 5 ⟨19, 4, .down, .readWrite⟩ 0 (running 6000 0)
    let q := (s.openWrite 5).ports.get 5
    let pos := (q.reference - (5984 : Word)).toNat
    q.window.access ≠ .none ∧ pos < s.ttb.l ∧ (3 : Byte).toNat < q.window.length
      ∧ (q.window.direction = .up → pos = q.window.base + (3 : Byte).toNat)
      ∧ (q.window.direction = .down → pos + (3 : Byte).toNat = q.window.base) := by decide

theorem witness_WindowReadAnswers :
    let s := addressed 0 ready
    let u := addressed 7 ready
    s.bti = .code 0 ∧ (s.ports.get 0).window.access ≠ .none ∧ 15 < (s.ports.get 0).window.length
      ∧ u.bti = .code 7 ∧ (u.ports.get 7).window.access = .none := by decide

/-- 4.6.4: a well-formed list, a malformed one, and a record DEPARTED. -/
theorem witness_WritesApplyFields :
    let s := holding (blank 8000) (station 4 ⟨10, 4, .up, .readWrite⟩ 0x220 (running 8011 0))
    let q := (s.openWrite 4).ports.get 4
    let pos := (q.reference - (8000 : Word)).toNat
    let fits (es : List RawEntry) : Prop := (es.map fun e => e.field.toNat).Nodup ∧
      ∀ e ∈ es, e.value.toNat < ([3, 16, 3, 3, 3, 3, 3, 3, 2, 256] : List Nat).getD e.field.toNat 0
    s.bti ≠ .init ∧ q.window.access = .readWrite ∧ q.fault = .clear ∧ pos < s.ttb.l ∧ (1 : Byte).toNat < q.window.length
      ∧ (q.window.direction = .up → pos = q.window.base + (1 : Byte).toNat)
      ∧ (q.window.direction = .down → pos + (1 : Byte).toNat = q.window.base)
      ∧ s.ttb.lookup 8000 = some (blank 8000) ∧ (blank 8000).place = .inLine
      ∧ fits [⟨0, 2⟩, ⟨1, 15⟩, ⟨5, 2⟩, ⟨8, 1⟩, ⟨9, 255⟩] ∧ ¬ fits [⟨9, 5⟩, ⟨9, 6⟩] ∧ ¬ fits [⟨1, 16⟩] ∧ ¬ fits [⟨10, 0⟩] := by
  decide

theorem witness_WritesApplyFields_late :
    let s := holding { blank 8000 with place := .departed } (station 4 ⟨10, 4, .up, .readWrite⟩ 0x220 (running 8011 0))
    (s.ttb.lookup 8000).map Record.place = some .departed := by decide

theorem witness_WritesApplyFields_unknown :
    let s := station 4 ⟨10, 4, .up, .readWrite⟩ 0x220 (running 8011 0)
    let q := (s.openWrite 4).ports.get 4
    q.window.access = .readWrite ∧ q.fault = .clear ∧ (q.reference - (8000 : Word)).toNat < s.ttb.l
      ∧ (1 : Byte).toNat < q.window.length
      ∧ (q.window.direction = .up → (q.reference - (8000 : Word)).toNat = q.window.base + (1 : Byte).toNat)
      ∧ s.ttb.lookup 8000 = none := by decide

theorem witness_SetPortConfigures :
    let good (target pr base length da : Byte) (mask : Word) : Bool :=
      (decide (target.toNat ≤ 7) && decide (pr.toNat ≤ 3) && decide (base.toNat ≤ 47) &&
      decide (1 ≤ length.toNat) && decide (length.toNat ≤ 16) && decide (da.toNat ≤ 7) && decide (da.toNat % 4 ≤ 2) &&
      decide (mask.toNat < 1024))
    ready.bti ≠ .init ∧ (ready.ports.get 0).privileges.setup = true ∧ good 7 3 47 16 6 1023 = true
      ∧ (7 : PortNum).val = (7 : Byte).toNat ∧ good 8 3 47 16 6 1023 = false ∧ good 7 3 47 16 7 1023 = false
      ∧ good 7 3 47 0 6 1023 = false ∧ good 7 3 47 16 6 1024 = false := by decide

theorem witness_PortReadersAndClearFault :
    let s := addressed 7 (after (.purge 7) ready)
    s.bti = .code 7 ∧ 7 < (8 : Byte).toNat ∧ (7 : PortNum).val = (7 : Byte).toNat
      ∧ (s.ports.get 7).fault ≠ .clear ∧ (s.ports.get 0).fault = .clear := by decide

theorem witness_PortResetClearsThePort :
    let s := addressed 0 ready
    let u := addressed 7 ready
    s.bti = .code 0 ∧ (s.ports.get 0).privileges.setup = true ∧ (7 : PortNum).val = (7 : Byte).toNat
      ∧ (7 : PortNum) ≠ 0 ∧ 7 < (8 : Byte).toNat ∧ u.bti = .code 7 ∧ (u.ports.get 7).privileges.setup = false
      ∧ (0 : Byte).toNat ≠ (7 : PortNum).val ∧ (0 : Byte).toNat ≤ 7 := by decide

theorem witness_PortsKeptApart :
    (Instr.setPort 0 7 0 0 1 0 0).port = some 0 ∧ (6 : PortNum) ≠ 0
      ∧ (∀ b ∈ (Instr.setPort 0 7 0 0 1 0 0).namesPort, b.toNat ≠ (6 : PortNum).val) := by decide

/-! ### Channels -/

/-- The gum valve's configuration as it is applied. -/
def gumConfig : ChanConfig :=
  { ChanConfig.reset with
    sp := 12, gate := .presentAfter .fold, stamp := some .gum, onAngle := 200, duration := 2500, latencyOn := 3200 }

theorem witness_LeadCoversTheLatency :
    (3200 = gumConfig.latencyOn ∧ 328 = (gumConfig.latch 4096 410 ⟨5000, 3500⟩).onLead) ∧ (0 : Int) < 410
      ∧ 328 < gumConfig.leadLimit ∧ 2048 = (gumConfig.latch 4096 32767 ⟨5000, 3500⟩).onLead
      ∧ 2048 = gumConfig.leadLimit ∧ (-1 : Int) ≤ 0 := by decide

theorem witness_TargetIsTheEarliest :
    256 ≤ 4096 ∧ 4096 ≤ 16384 ∧ (⟨65535, 4095⟩ : Count).mc < 4096 ∧ gumConfig.onAngle < 4096
      ∧ gumConfig.leadLimit < 4096 := by decide

/-- The count at the on point, one before it, and half the range of counts away, across the wrap of the cycle number. -/
theorem witness_TargetIsTheEarliest_reached :
    let ch : Channel := { Channel.reset with state := .armed ⟨0, 0, 0, 5, none⟩ }
    ch.atPoint 4096 ⟨0, 5⟩ = true ∧ ch.atPoint 4096 ⟨0, 4⟩ = false ∧ ch.atPoint 4096 ⟨65535, 4095⟩ = false
      ∧ ch.atPoint 4096 ⟨32768, 4⟩ = true ∧ ch.atPoint 4096 ⟨32768, 5⟩ = false := by decide

theorem witness_OffPointFollowsOnPoint :
    let c : ChanConfig := { gumConfig with mode := .angle, onAngle := 1000, offAngle := 1400, latencyOff := 20000 }
    256 ≤ 4096 ∧ (⟨65535, 400⟩ : Count).mc < 4096 ∧ 0 ≤ 2
      ∧ (c.latch 4096 492 ⟨65535, 400⟩).ct = (⟨65535, 400⟩ : Count).cycle + BitVec.ofNat 16 0
      ∧ c.mode = .angle ∧ gumConfig.mode ≠ .angle := by decide

theorem witness_OnEventFiresOrSkips :
    let l : Latch := ⟨5001, 328, 0, 5000 * 4096 + 3968, none⟩
    let folded : Record := { blank 4989 with results := ⟨.none, .none, .none, .none, .done, .none⟩ }
    let s := holding folded (gumLine.modChan 3 fun _ => { Channel.reset with config := gumConfig, state := .armed l })
    (s.chans.get 3).config = gumConfig ∧ s.ttb.lookup (l.ct - BitVec.ofNat 16 gumConfig.sp) = some folded
      ∧ gumConfig.gate = .presentAfter .fold ∧ folded.kind = .blank ∧ folded.reject = none
      ∧ folded.results.get .fold = .done ∧ (s.chans.get 3).state = .armed l
      ∧ (gumConfig.minSpeed : Int) ≤ s.phu.speed ∧ gumLine.ttb.lookup (l.ct - BitVec.ofNat 16 gumConfig.sp) = none
      ∧ (-1 : Int) < gumConfig.minSpeed := by decide

theorem witness_OnEventFiresOrSkips_off :
    let l : Latch := ⟨5000, 0, 0, 5000 * 4096 + 3967, some (5000 * 4096 + 3968)⟩
    ((atPointLine 3967).chans.get 5).state = .on l ⟨⟨5000, none⟩, none, 0, none⟩ := by decide

/-- The end of a pulse that holds a configuration and leaves TIME_LONG, and one that passes its due cycle. -/
theorem witness_OnEventFiresOrSkips_pair :
    let l : Latch := ⟨4990, 0, 0, 4990 * 4096, none⟩
    (8 : ChanNum).val % 2 = 0 ∧ (9 : ChanNum).val = (8 : ChanNum).val + 1
      ∧ (pulsedLine.chans.get 8).pending.isSome = true ∧ (pulsedLine.chans.get 9).state = .claimed
      ∧ 0 < ((ChanConfig.reset.latch 4096 0 ⟨5000, 0⟩).ct - (l.ct + 1)).toInt := by decide

/-- The line of `pulsedLine` with an even channel that holds a configuration while its odd partner runs for itself. -/
def apartLine : State :=
  (pulsedLine.modChan 8 fun ch => { ch with config := { ChanConfig.reset with duration := 50000 } }).modChan 9 fun _ =>
    { Channel.reset with state := .armed ⟨5000, 0, 0, 5000 * 4096 + 5, none⟩ }

/-- Both run apart: the partner is not CLAIMED and the mode applied is not TIME_LONG. -/
theorem witness_OnEventFiresOrSkips_apart :
    (apartLine.chans.get 8).state
        = .on ⟨5000, 0, 0, 5000 * 4096, none⟩ ⟨⟨5000, none⟩, none, 0, some ⟨50000, 7⟩⟩
      ∧ (apartLine.chans.get 8).pending.map ChanConfig.mode = some .time ∧ (apartLine.chans.get 9).state.phase = .armed
      ∧ (after (.timerExpiry 8) apartLine).chans.get 9 = apartLine.chans.get 9 := by decide

theorem witness_TimerExpiryEndsOrContinues :
    let l : Latch := ⟨10, 0, 0, 0, none⟩
    let dot : Pulse := ⟨⟨10, none⟩, none, 1, some ⟨800, 1⟩⟩
    let last : Pulse := ⟨⟨10, none⟩, none, 0, some ⟨800, 1⟩⟩
    (ready.chans.get 2).state.timer = none ∧ dot.timer.isSome = true ∧ last.timer.isSome = true
      ∧ ({ Channel.reset with state := .on l dot } : Channel).state = .on l dot ∧ 0 < dot.dots
      ∧ ({ Channel.reset with state := .gap l dot } : Channel).state = .gap l dot
      ∧ ({ Channel.reset with state := .on l last } : Channel).state = .on l last ∧ last.dots = 0 := by decide

/-- The pulse of channel 8 that holds a configuration, with channel 9 CLAIMED for it. -/
theorem witness_TimerExpiryEndsOrContinues_pair :
    (pulsedLine.chans.get 8).state
        = .on ⟨5000, 0, 0, 5000 * 4096, none⟩ ⟨⟨5000, none⟩, none, 0, some ⟨50000, 7⟩⟩
      ∧ (8 : ChanNum).val % 2 = 0 ∧ (9 : ChanNum).val = (8 : ChanNum).val + 1
      ∧ (pulsedLine.chans.get 8).pending.isSome = true ∧ (pulsedLine.chans.get 9).state = .claimed := by decide

theorem witness_DisableCutsThePulse :
    let s := addressed 0 ((holding (blank 4989) gumLine).modChan 15 fun _ => gumPulse)
    s.bti = .code 0 ∧ (s.ports.get 0).privileges.setup = true ∧ 15 < (16 : Byte).toNat
      ∧ (15 : Byte).toNat = (15 : ChanNum).val
      ∧ (s.chans.get 15).state.pulse = some ⟨⟨4989, some 4989⟩, some (.result .gum), 0, some ⟨2500, 50000⟩⟩
      ∧ (s.ttb.lookup 4989).map Record.birth = some 4989 ∧ (s.chans.get 14).state = .disabled := by decide

theorem witness_DisableCutsThePulse_without :
    (after (.enableChannel 0 0) ready |>.chans.get 0).state.phase = .waiting
      ∧ (after (.enableChannel 0 0) gumLine |>.chans.get 0).state.phase = .armed
      ∧ ({ Channel.reset with state := .claimed } : Channel).state = .claimed := by decide

/-- A cut that releases the partner, a record beside the gating one, and a gating serial that the table does not hold. -/
theorem witness_DisableCutsThePulse_pair :
    let s := addressed 0 pulsedLine
    s.bti = .code 0 ∧ (s.ports.get 0).privileges.setup = true ∧ (8 : Byte).toNat = (8 : ChanNum).val
      ∧ (8 : ChanNum).val % 2 = 0 ∧ (9 : ChanNum).val = (8 : ChanNum).val + 1
      ∧ (s.chans.get 8).pending.isSome = true ∧ (s.chans.get 9).state = .claimed
      ∧ (s.chans.get 8).state.pulse.isSome = true ∧ s.ttb.lookup 5000 = none ∧ (4989 : Word) ≠ 5000 := by decide

theorem witness_SetChannelActsByState :
    let long : RawConfig := ⟨0, 0, 0, 0xFF, 0, 0, 2, 0, 50000, 0, 0, 0, 0, 0, 0, 0⟩
    let s := addressed 0 (gumLine.modChan 14 fun _ => gumPulse)
    s.bti = .code 0 ∧ (s.ports.get 0).privileges.setup = true ∧ 15 < (16 : Byte).toNat
      ∧ (14 : Byte).toNat = (14 : ChanNum).val
      ∧ namedConfig s.ttb.l s.phu.p ((14 : ChanNum).val % 2 == 1) { gumValve with sp := 24 } = none
      ∧ (namedConfig s.ttb.l s.phu.p ((14 : ChanNum).val % 2 == 1) long).map ChanConfig.mode = some .timeLong
      ∧ (s.chans.get 14).state ≠ .claimed ∧ (s.chans.get (partnerOf 14)).state = .disabled
      ∧ (s.chans.get 14).state.pulse.isSome = true := by decide

/-- An ARMED channel whose on point moves behind the count, and an even channel with its CLAIMED partner. -/
theorem witness_SetChannelActsByState_armed :
    let s := addressed 0 pulsedLine
    (s.chans.get 15).state = .armed ⟨5000, 0, 0, 5000 * 4096 + 5, none⟩
      ∧ 0 < ((ChanConfig.reset.latch s.phu.p s.phu.speed s.phu.count).ct - 5000).toInt
      ∧ (15 : Byte).toNat = (15 : ChanNum).val ∧ (8 : ChanNum).val % 2 = 0 ∧ (9 : ChanNum).val = (8 : ChanNum).val + 1
      ∧ (s.chans.get 8).state ≠ .claimed ∧ (s.chans.get 9).state = .claimed
      ∧ (s.chans.get 8).config.mode = .timeLong := by decide

theorem witness_SetChannelActsByState_busy :
    let s := after (.enableChannel 0 15) ready
    (s.chans.get (partnerOf 14)).state ≠ .disabled ∧ (s.chans.get (partnerOf 14)).state ≠ .claimed := by decide

theorem witness_ConfigurationsAreChecked :
    1 ≤ 256 ∧ (namedConfig 24 4096 true gumValve).isSome = true := by decide

theorem witness_EnableArmsOrWaits :
    let s := addressed 0 gumLine
    s.bti = .code 0 ∧ (s.ports.get 0).privileges.setup = true ∧ 15 < (16 : Byte).toNat
      ∧ (15 : Byte).toNat = (15 : ChanNum).val ∧ (s.chans.get 15).state = .disabled
      ∧ s.phu.phase = .synced ∧ s.phu.debt = 0 ∧ (addressed 0 ready).phu.phase = .unsynced
      ∧ gumPulse.state ≠ .claimed ∧ gumPulse.state ≠ .disabled := by decide

/-! ### Reading the state -/

theorem witness_PhaseAndLineReaders : (addressed 7 ready).bti = .code 7 := by decide

theorem witness_BlockReaders :
    let s := addressed 7 (queueOf 16 ready)
    s.bti = .code 7 ∧ 15 < (16 : Byte).toNat ∧ (15 : Byte).toNat = (15 : ChanNum).val ∧ 7 < (8 : Byte).toNat
      ∧ (7 : Byte).toNat = (7 : JobNum).val ∧ s.bfu.queue.length ≤ (16 : Byte).toNat
      ∧ (s.bfu.queue[(15 : Byte).toNat]?).isSome = true := by decide

/-! ### Batches, jobs and the queue -/

theorem witness_ClassificationCounts :
    let s := holding (blank 80) (counting (fun o => { o with good := 97, passed := 1 }) (running 100 0))
    s.ttb.lookup (blank 80).serial = some (blank 80) ∧ ((blank 80).route = .diverted → (blank 80).reject.isSome = true)
      ∧ (blank 80).kind ≠ .void ∧ s.bfu.openBatch.job = (blank 80).job
      ∧ s.bfu.openBatch.good + s.bfu.openBatch.passed + 1 < s.bfu.openBatch.ne ∧ s.bfu.openBatch.closePending = false
      ∧ (79 : Word) ≠ (blank 80).serial := by decide

/-- A VOID record of another job, and a record that finds the in-stack counts held at their limit and a close pending. -/
theorem witness_ClassificationCounts_edges :
    let r : Record := { blank 80 with job := 3, kind := .void }
    let s := holding (blank 80) (counting (fun o => { o with good := 65535, closePending := true }) (running 100 0))
    (holding r (running 100 0)).ttb.lookup r.serial = some r ∧ (running 100 0).bfu.openBatch.job ≠ r.job
      ∧ s.ttb.lookup (blank 80).serial = some (blank 80) ∧ s.bfu.openBatch.job = (blank 80).job
      ∧ s.bfu.openBatch.ne ≤ min (s.bfu.openBatch.good + 1) 65535 + s.bfu.openBatch.passed
      ∧ s.bfu.queue.length < 16 ∧ ((s.classify (blank 80)).ttb.lookup 80).map Record.batchEnd = some true := by decide

/-- A record of another job: at a batch that has counted nothing, at one that has, and at one that a full queue holds. -/
theorem witness_ClassificationCounts_job :
    let r : Record := { blank 80 with job := 3 }
    let s := holding r (counting (fun o => { o with good := 99 }) (running 100 0))
    let u := holding r (running 100 0)
    s.ttb.lookup r.serial = some r ∧ u.ttb.lookup r.serial = some r ∧ r.kind ≠ .void ∧ r.route ≠ .diverted
      ∧ s.bfu.openBatch.job ≠ r.job
      ∧ u.bfu.openBatch.good + u.bfu.openBatch.diverted + u.bfu.openBatch.passed + u.bfu.openBatch.sample = 0
      ∧ 0 < s.bfu.openBatch.good + s.bfu.openBatch.diverted + s.bfu.openBatch.passed + s.bfu.openBatch.sample
      ∧ s.bfu.queue.length < 16 ∧ 16 ≤ (queueOf 16 s).bfu.queue.length := by decide

theorem witness_BatchClosesAtItsSize :
    let s := holding (blank 80) (counting (fun o => { o with good := 98, passed := 1 }) (running 100 0))
    s.ttb.lookup (blank 80).serial = some (blank 80) ∧ (blank 80).kind ≠ .void ∧ (blank 80).reject = none
      ∧ (blank 80).route = .stream ∧ s.bfu.openBatch.job = (blank 80).job
      ∧ s.bfu.openBatch.ne = min (s.bfu.openBatch.good + 1) 65535 + s.bfu.openBatch.passed
      ∧ s.bfu.openBatch.closePending = false
      ∧ (queueOf 15 s).bfu.queue.length < 16 ∧ 16 ≤ (queueOf 16 s).bfu.queue.length := by decide

/-- A passed reject at a batch whose close has been pending since its size. -/
theorem witness_BatchClosesAtItsSize_late :
    let r : Record := { blank 80 with reject := some .lost }
    let s := holding r (counting (fun o => { o with good := 100, closePending := true }) (running 100 0))
    s.ttb.lookup r.serial = some r ∧ r.kind ≠ .void ∧ r.reject ≠ none ∧ r.route = .stream
      ∧ s.bfu.openBatch.job = r.job ∧ s.bfu.openBatch.closePending = true
      ∧ s.bfu.openBatch.ne < s.bfu.openBatch.good + s.bfu.openBatch.passed + 1
      ∧ s.bfu.queue.length < 16 := by decide

theorem witness_JobTestClosesOrMixes :
    let s := counting (fun o => { o with good := 1, lastInStack := some ⟨80, some 80⟩ }) (holding (blank 80) (running 101 0))
    s.bfu.openBatch.job ≠ 7 ∧ ready.bfu.openBatch.job = 0
      ∧ ready.bfu.openBatch.good + ready.bfu.openBatch.diverted + ready.bfu.openBatch.passed + ready.bfu.openBatch.sample = 0
      ∧ 0 < s.bfu.openBatch.good + s.bfu.openBatch.diverted + s.bfu.openBatch.passed + s.bfu.openBatch.sample
      ∧ (queueOf 15 s).bfu.queue.length < 16 ∧ 16 ≤ (queueOf 16 s).bfu.queue.length
      ∧ (s.ttb.lookup 80).map Record.birth = some 80 ∧ ready.bfu.openBatch.lastInStack = none := by decide

/-- A last in-stack serial whose record is gone, a record beside it, a queue at the high-water mark and a quota met. -/
theorem witness_JobTestClosesOrMixes_close :
    let s := counting (fun o => { o with good := 1, lastInStack := some ⟨80, some 80⟩ }) (queueOf 11 (running 101 0))
    s.ttb.lookup 80 = none ∧ (81 : Word) ≠ 80 ∧ s.bfu.queue.length = 11 ∧ s.bfu.openBatch.job = 0
      ∧ ((1 : Nat) != 0 && 0 + 1 == 1) = true := by decide

theorem witness_CloseBatchForces :
    let s := counting (fun o => { o with passed := 1, lastInStack := some ⟨80, some 80⟩ }) (holding (blank 80) (running 101 0))
    s.bti ≠ .init ∧ ((s.ports.get 0).privileges.setup = true ∨ (s.ports.get 0).privileges.batch = true)
      ∧ ready.bfu.openBatch.good + ready.bfu.openBatch.passed = 0
      ∧ 0 < s.bfu.openBatch.good + s.bfu.openBatch.passed ∧ (queueOf 15 s).bfu.queue.length < 16
      ∧ 16 ≤ (queueOf 16 s).bfu.queue.length ∧ (s.ttb.lookup 80).map Record.birth = some 80 := by decide

theorem witness_JobCommands :
    let s := addressed 0 ready
    s.bti = .code 0 ∧ (s.ports.get 0).privileges.setup = true ∧ 7 < (8 : Byte).toNat
      ∧ (7 : Byte).toNat = (7 : JobNum).val ∧ (65535 : Word) ≠ 0 ∧ s.jobInUse 0 = true ∧ s.jobInUse 7 = false
      ∧ (s.bfu.jobs.get 7).defined = false ∧ (s.bfu.jobs.get 0).defined = true := by decide

theorem witness_PopTakesTheOldest :
    let s := addressed 0 (queueOf 16 ready)
    let u := addressed 7 ready
    s.bti = .code 0 ∧ (s.ports.get 0).privileges.batch = true
      ∧ s.bfu.queue = queued 0 :: (List.range 15).map (fun n => queued (n + 1))
      ∧ u.bti = .code 7 ∧ (u.ports.get 7).privileges.batch = false ∧ (addressed 0 ready).bfu.queue = [] := by decide

/-! ### Events -/

theorem witness_EventSetCommands :
    (addressed 7 ready).bti = .code 7 ∧ 2048 ≤ (2048 : Word).toNat ∧ (2047 : Word).toNat < 2048 := by decide

/-! ### Invariants -/

/-- A line at its first advance: serial 1 at position 0. -/
def oneAdvance : State := after (.forwardCount false true false) (running 0 4095)

theorem witness_StepKeepsRanges : (running 100 4095).phu.Ok ∧ ∀ p, ((running 100 4095).ports.get p).Ok := by
  refine ⟨⟨by decide, by decide, by decide, by decide, by decide, by decide, by decide⟩, fun p => ?_⟩
  have clear : ∀ p, ((running 100 4095).ports.get p).fault = .clear := by decide
  exact ⟨by revert p; decide, by revert p; decide, (fun more f h => by rw [clear p] at h; exact absurd h (by simp)),
    by revert p; decide⟩

theorem witness_StepKeepsTheTable :
    oneAdvance.ttb.Placed oneAdvance.phu.cycle ∧ oneAdvance.ttb.Counted oneAdvance.phu.cycle := by
  refine ⟨⟨by decide, by decide, ?_, ?_, by decide, ?_⟩, ⟨?_, ?_, ?_⟩⟩
  · exact fun k r h => (by decide : ∀ k, ∀ r ∈ oneAdvance.ttb.slots.get k, slotOf r.serial = k) k r h
  · exact fun k r h => (by decide : ∀ k, ∀ r ∈ oneAdvance.ttb.slots.get k,
      r.place = .inLine → r.position oneAdvance.phu.cycle < oneAdvance.ttb.l) k r h
  · exact fun k r h => (by decide : ∀ k, ∀ r ∈ oneAdvance.ttb.slots.get k, r.birth < oneAdvance.ttb.births) k r h
  · exact fun k r h => (by decide : ∀ k, ∀ r ∈ oneAdvance.ttb.slots.get k,
      r.place = .inLine → (r.cls = .uncounted ↔ r.position oneAdvance.phu.cycle < oneAdvance.ttb.kc)) k r h
  · exact fun k r h => (by decide : ∀ k, ∀ r ∈ oneAdvance.ttb.slots.get k,
      r.place = .departed → r.cls ≠ .uncounted) k r h
  · exact fun k r h => (by decide : ∀ k, ∀ r ∈ oneAdvance.ttb.slots.get k,
      (r.batch = none ↔ r.cls = .uncounted ∨ r.cls = .voidSkip)) k r h

/-- A SPLICE record, created while LOST. -/
def spliceAdvance : State :=
  after (.forwardCount false true true) { running 0 4095 with ttb := { ready.ttb with tracking := .lost } }

theorem witness_StepKeepsMarks : spliceAdvance.ttb.Marked := by
  refine ⟨?_, ?_, ?_, ?_⟩
  · intro k r f h g
    have no : ∀ k, ∀ r ∈ spliceAdvance.ttb.slots.get k, r.results = ⟨.none, .none, .none, .none, .none, .none⟩ := by
      decide
    rw [no k r h] at g
    cases f <;> exact absurd g (by decide)
  · exact fun k r h => (by decide : ∀ k, ∀ r ∈ spliceAdvance.ttb.slots.get k, r.kind = .splice → r.reject.isSome) k r h
  · exact fun k r h => (by decide : ∀ k, ∀ r ∈ spliceAdvance.ttb.slots.get k, r.route = .diverted → r.reject.isSome) k r h
  · exact fun k r l h => (by decide : ∀ k, ∀ r ∈ spliceAdvance.ttb.slots.get k,
      r.untrusted = true → r.reject.isSome) k r h

/-- One channel armed, the others DISABLED. -/
def oneArmed : State := after (.enableChannel 0 15) (running 100 4095)

theorem witness_StepKeepsChannels : oneArmed.phu.Ok ∧ oneArmed.ChannelsOk := by
  have nothing : ∀ k, (oneArmed.chans.get k).pending = none := by decide
  refine ⟨⟨by decide, by decide, by decide, by decide, by decide, by decide, by decide⟩,
    ⟨fun k => ⟨⟨?_, ?_, ?_, ?_, ?_, ?_, ?_⟩, ?_, ?_, ?_⟩, by decide, by decide, by decide, by decide, by decide,
      by decide⟩⟩
  · revert k; decide
  · revert k; decide
  · revert k; decide
  · revert k; decide
  · revert k; decide
  · revert k; decide
  · revert k; decide
  · intro c h
    rw [nothing k] at h
    exact absurd h (by simp)
  · exact fun x h => (by decide : ∀ k, ∀ x ∈ (oneArmed.chans.get k).state.latch,
      x.onLead ≤ (oneArmed.chans.get k).config.leadLimit ∧ x.offLead ≤ (oneArmed.chans.get k).config.leadLimit) k x h
  · revert k; decide

/-- A batch that has counted one blank. -/
def oneCounted : State :=
  after (.forwardCount false true false) (holding (blank 80) (running 99 4095))

theorem witness_StepKeepsBatches : oneCounted.bfu.Ok := by
  have empty : oneCounted.bfu.queue = [] := by decide
  refine ⟨fun j => ⟨?_, ?_, ?_, ?_⟩, by decide, ⟨by decide, by decide, by decide, by decide, by decide, by decide,
    by decide, by decide, by decide, by decide, by decide⟩, by decide, ?_, ?_, by decide⟩
  · revert j; decide
  · exact fun n h => (by decide : ∀ j, ∀ n ∈ (oneCounted.bfu.jobs.get j).next, 1 ≤ n ∧ n ≤ 50000) j n h
  · revert j; decide
  · revert j; decide
  · intro i x h
    rw [empty] at h
    exact absurd h (by simp)
  · rw [empty]
    exact fun x h => absurd h (by simp)

theorem witness_batch_has_counted : oneCounted.bfu.openBatch.good = 1 := by decide

end Sys2Proof.Tests
end

/-! PROOFS. What the events, the records, the channels and the Phase Unit keep and gain under the shared operations: the
layer of rules on which the statements about motion, inhibition and the ranges rest. -/

namespace Sys2Proof.Machine

/-! ## Request sets after a raise (R159) -/

/-- The one bit of a single event's set. -/
theorem Event.only_getLsbD (e f : Event) : f.only.getLsbD e.bit = (e == f) := by
  cases e <;> cases f <;> rfl

@[simp] theorem EventSets.add_enable (e : Event) (x : EventSets) : (EventSets.add e x).enable = x.enable := rfl

@[simp] theorem State.requested_raise (s : State) (f e : Event) (q : PortNum) :
    (s.raise f).requested q e = (s.requested q e || e == f) := by
  simp [State.requested, EventSets.add, Event.only_getLsbD]

@[simp] theorem State.requested_raiseIf (s : State) (c : Bool) (f e : Event) (q : PortNum) :
    (s.raiseIf c f).requested q e = (s.requested q e || (c && e == f)) := by
  cases c
  · simp [State.raiseIf]
  · simp [State.raiseIf]

theorem State.requested_congr {s t : State} (h : t.events = s.events) (q : PortNum) (e : Event) :
    t.requested q e = s.requested q e := by
  simp [State.requested, h]

/-- From `s` to `t` no request is lost, and only the events of `es` may be requested anew. -/
structure State.Raises (es : List Event) (s t : State) : Prop where
  keeps : ∀ q e, s.requested q e = true → t.requested q e = true
  only : ∀ q e, e ∉ es → t.requested q e = s.requested q e

namespace State.Raises

variable {es : List Event} {s t u : State}

theorem refl (es : List Event) (s : State) : State.Raises es s s := ⟨fun _ _ h => h, fun _ _ _ => rfl⟩

theorem trans (h : State.Raises es s t) (g : State.Raises es t u) : State.Raises es s u :=
  ⟨fun q e x => g.keeps q e (h.keeps q e x), fun q e x => (g.only q e x).trans (h.only q e x)⟩

theorem of_events (h : t.events = s.events) : State.Raises es s t :=
  ⟨fun q e x => by rwa [State.requested_congr h], fun q e _ => State.requested_congr h q e⟩

/-- Work that leaves the events, before what raises. -/
theorem after (g : State.Raises es t u) (h : t.events = s.events) : State.Raises es s u := (of_events h).trans g

/-- Work that leaves the events, after what raises. -/
theorem before (g : State.Raises es s t) (h : u.events = t.events) : State.Raises es s u := g.trans (of_events h)

theorem raiseIf {e : Event} (h : e ∈ es) (g : State.Raises es s t) (c : Bool) : State.Raises es s (t.raiseIf c e) := by
  refine g.trans ⟨fun q f x => by simp [x], fun q f x => ?_⟩
  have : f ≠ e := fun g => x (g ▸ h)
  simp [this]

theorem raise {e : Event} (h : e ∈ es) (g : State.Raises es s t) : State.Raises es s (t.raise e) := raiseIf h g true

theorem foldl {α : Type} (f : State → α → State) (h : ∀ (s : State) k, State.Raises es s (f s k)) (ks : List α) :
    ∀ s : State, State.Raises es s (ks.foldl f s) := by
  induction ks with
  | nil => exact refl es
  | cons k rest ih => exact fun s => (h s k).trans (ih (f s k))

end State.Raises

/-! ### Channel work requests CHANNEL and STAGED alone -/

/-- The events of the channels (R93, R98, R101). -/
def channelEvents : List Event := [.channel, .staged]

theorem channel_mem : Event.channel ∈ channelEvents := by decide

theorem staged_mem : Event.staged ∈ channelEvents := by decide

theorem State.arm_raises (s : State) (k : ChanNum) (x : Count) : State.Raises channelEvents s (s.arm k x) := by
  unfold State.arm
  dsimp only
  refine State.Raises.raiseIf channel_mem ?_ _
  exact State.Raises.of_events rfl

theorem State.applyPending_raises (s : State) (k : ChanNum) : State.Raises channelEvents s (s.applyPending k) := by
  unfold State.applyPending
  split
  · exact State.Raises.refl _ s
  · exact (State.Raises.raise staged_mem (State.Raises.of_events rfl)).before (State.settlePair_events _ k)

theorem State.onEvent_raises (s : State) (k : ChanNum) (l : Latch) (x : Count) :
    State.Raises channelEvents s (s.onEvent k l x) := by
  unfold State.onEvent
  dsimp only
  split
  · exact State.Raises.of_events rfl
  · exact (State.arm_raises _ k x).after rfl

theorem State.endPulse_raises (s : State) (k : ChanNum) (l : Latch) (x : Count) :
    State.Raises channelEvents s (s.endPulse k l x) :=
  (State.applyPending_raises s k).trans ((State.arm_raises _ k x).after rfl)

theorem State.pointEvent_raises (x : Count) (s : State) (k : ChanNum) :
    State.Raises channelEvents s (s.pointEvent x k) := by
  unfold State.pointEvent
  split
  · exact State.onEvent_raises s k _ x
  · exact State.endPulse_raises s k _ x
  · exact State.Raises.refl _ s

theorem State.pointEvents_raises (s : State) (ks : List ChanNum) (x : Count) :
    State.Raises channelEvents s (ks.foldl (State.pointEvent x) s) :=
  State.Raises.foldl _ (State.pointEvent_raises x) ks s

theorem State.runPoints_raises (s : State) (x : Count) : State.Raises channelEvents s (s.runPoints x) := by
  unfold State.runPoints
  split
  · exact (State.pointEvents_raises s _ x).before rfl
  · exact State.Raises.refl _ s

theorem State.cutPulse_raises (after : ChanState) (s : State) (k : ChanNum) :
    State.Raises channelEvents s (s.cutPulse after k) := by
  unfold State.cutPulse
  split
  · exact State.Raises.refl _ s
  · exact (State.Raises.raise channel_mem (State.Raises.of_events rfl)).trans ((State.applyPending_raises _ k).after rfl)

/-- The channels whose pulses the start of inhibition cuts, in the order of a free choice (R31, log 3). -/
def State.cutOrder (s : State) : List ChanNum :=
  inTurn (Config.eventTurn s.frees) (allChans.filter fun k => (s.chans.get k).state.pulse.isSome)

/-- The spell entered and every pulse cut. -/
def State.cutAll (s : State) : State :=
  s.cutOrder.foldl (State.cutPulse .waiting) { s with chans := s.chans.map Channel.enterSpell }

/-- Inhibition begins by the cuts, after which no channel keeps a due cycle or a target (R90). -/
theorem State.beginInhibition_eq (s : State) :
    s.beginInhibition = { s.cutAll.chose with chans := s.cutAll.chans.map Channel.inhibit } := rfl

theorem State.cutAll_raises (s : State) : State.Raises channelEvents s s.cutAll :=
  (State.Raises.foldl _ (State.cutPulse_raises .waiting) _ _).after rfl

theorem State.beginInhibition_raises (s : State) : State.Raises channelEvents s s.beginInhibition :=
  (State.cutAll_raises s).before rfl

/-! ### Counting requests BATCH, QHIGH, QFULL and JOB alone -/

/-- The events of a close, or of a close held back (R136, R137, R152, R154). -/
def batchEvents : List Event := [.batch, .qhigh, .qfull, .job]

theorem State.closeBatch_raises (s : State) (short forced : Bool) (next : JobNum) :
    State.Raises batchEvents s (s.closeBatch short forced next) := by
  have batch : Event.batch ∈ batchEvents := by decide
  have qhigh : Event.qhigh ∈ batchEvents := by decide
  have job : Event.job ∈ batchEvents := by decide
  unfold State.closeBatch
  dsimp only
  refine State.Raises.raiseIf job (State.Raises.raiseIf qhigh (State.Raises.raise batch ?_) _) _
  exact State.Raises.of_events rfl

theorem State.raiseQfull_raises (s : State) : State.Raises batchEvents s s.raiseQfull := by
  have qfull : Event.qfull ∈ batchEvents := by decide
  unfold State.raiseQfull
  split
  · exact State.Raises.refl _ s
  · exact State.Raises.raise qfull (State.Raises.of_events rfl)

theorem State.jobTest_raises (s : State) (j : JobNum) : State.Raises batchEvents s (s.jobTest j) := by
  unfold State.jobTest
  dsimp only
  split
  · exact State.Raises.refl _ s
  · split
    · exact State.Raises.of_events rfl
    · split
      · exact (State.closeBatch_raises _ _ _ _).after (State.placeBatchEnd_events s)
      · exact (State.raiseQfull_raises _).after rfl

theorem State.sizeTest_raises (s : State) (x : Word) : State.Raises batchEvents s (s.sizeTest x) := by
  unfold State.sizeTest
  dsimp only
  split
  · exact State.Raises.refl _ s
  · split
    · exact (State.closeBatch_raises _ _ _ _).after rfl
    · exact (State.raiseQfull_raises _).after rfl

theorem State.countRecord_raises (s : State) (r : Record) : State.Raises batchEvents s (s.countRecord r) := by
  unfold State.countRecord
  dsimp only
  split
  · exact (State.sizeTest_raises _ _).after rfl
  · exact State.Raises.of_events rfl

theorem State.classify_raises (s : State) (r : Record) : State.Raises batchEvents s (s.classify r) := by
  unfold State.classify
  split
  · exact State.Raises.of_events rfl
  · exact (State.jobTest_raises s r.job).trans (State.countRecord_raises _ r)

theorem State.handOff_raises (s : State) : State.Raises batchEvents s s.handOff := by
  unfold State.handOff
  split
  · exact State.Raises.refl _ s
  · split
    · exact State.classify_raises s _
    · exact State.Raises.refl _ s

/-! ## What stays of a record that stamps and rejects reach -/

/-- `r'` is the record `r` after stamps and rejects: the same record, still rejected if it was. -/
structure Record.Kept (r r' : Record) : Prop where
  serial : r'.serial = r.serial
  place : r'.place = r.place
  kind : r'.kind = r.kind
  reject : r.reject.isSome = true → r'.reject.isSome = true

theorem Record.Kept.refl (r : Record) : r.Kept r := ⟨rfl, rfl, rfl, id⟩

theorem Record.Kept.trans {r r' r'' : Record} (h : r.Kept r') (g : r'.Kept r'') : r.Kept r'' :=
  ⟨g.serial.trans h.serial, g.place.trans h.place, g.kind.trans h.kind, fun x => g.reject (h.reject x)⟩

theorem Record.kept_rejectIf (c : Bool) (why : Reject) (r : Record) : r.Kept (r.rejectIf c why) := by
  cases c
  · exact Record.Kept.refl r
  · rw [Record.rejectIf_true, Record.rejectWith_eq]
    exact ⟨rfl, rfl, rfl, fun _ => rfl⟩

theorem Record.kept_mergeResult (f : ResultField) (v : Result) (r : Record) : r.Kept (r.mergeResult f v) := by
  unfold Record.mergeResult
  dsimp only
  split
  · have h : r.Kept { r with results := r.results.set f v } := ⟨rfl, rfl, rfl, id⟩
    exact h.trans (Record.kept_rejectIf _ _ _)
  · exact Record.Kept.refl r

theorem Record.kept_stampWith (st : Stamp) (r : Record) : r.Kept (r.stampWith st) := by
  cases st with
  | result f => exact Record.kept_mergeResult f .done r
  | route v => exact ⟨rfl, rfl, rfl, id⟩

/-- Every record that a lookup finds in `s`, it finds in `t`, kept; and no other. -/
def State.KeepsRecords (s t : State) : Prop :=
  ∀ y, ∃ f : Record → Record, (∀ r : Record, r.Kept (f r)) ∧ t.ttb.lookup y = (s.ttb.lookup y).map f

namespace State.KeepsRecords

variable {s t u : State}

theorem of_ttb (h : t.ttb = s.ttb) : s.KeepsRecords t := fun y => ⟨id, Record.Kept.refl, by simp [h]⟩

theorem trans (h : s.KeepsRecords t) (g : t.KeepsRecords u) : s.KeepsRecords u := by
  intro y
  obtain ⟨a, ha, hy⟩ := h y
  obtain ⟨b, hb, gy⟩ := g y
  exact ⟨b ∘ a, fun r => (ha r).trans (hb (a r)), by rw [gy, hy, Option.map_map]⟩

theorem write (s : State) (x : Word) (f : Record → Record) (hf : ∀ r : Record, r.Kept (f r)) :
    s.KeepsRecords (s.modTable (Ttb.write x f)) := by
  intro y
  have look := Ttb.lookup_write s.ttb x y f fun r => (hf r).serial
  by_cases e : y = x
  · exact ⟨f, hf, by simpa [e] using look⟩
  · exact ⟨id, Record.Kept.refl, by simpa [e] using look⟩

theorem mapRecords (s : State) (f : Record → Record) (hf : ∀ r : Record, r.Kept (f r)) :
    s.KeepsRecords (s.modTable (Ttb.mapRecords f)) :=
  fun y => ⟨f, hf, Ttb.lookup_mapRecords s.ttb y f fun r => (hf r).serial⟩

theorem foldl (f : State → ChanNum → State) (h : ∀ (s : State) k, s.KeepsRecords (f s k)) (ks : List ChanNum) :
    ∀ s : State, s.KeepsRecords (ks.foldl f s) := by
  induction ks with
  | nil => exact fun s => of_ttb rfl
  | cons k rest ih => exact fun s => (h s k).trans (ih (f s k))

/-- A record found in the later state was found in the earlier one. -/
theorem found (h : s.KeepsRecords t) {y : Word} {r' : Record} (e : t.ttb.lookup y = some r') :
    ∃ r, s.ttb.lookup y = some r ∧ r.Kept r' := by
  obtain ⟨f, hf, hy⟩ := h y
  rw [hy, Option.map_eq_some_iff] at e
  obtain ⟨r, hr, rfl⟩ := e
  exact ⟨r, hr, hf r⟩

theorem isSome (h : s.KeepsRecords t) (y : Word) : (t.ttb.lookup y).isSome = (s.ttb.lookup y).isSome := by
  obtain ⟨f, _, hy⟩ := h y
  rw [hy, Option.isSome_map]

/-- Places are kept. -/
theorem any_place (h : s.KeepsRecords t) (y : Word) (v : Place) :
    (t.ttb.lookup y).any (fun r => r.place == v) = (s.ttb.lookup y).any fun r => r.place == v := by
  obtain ⟨f, hf, hy⟩ := h y
  rw [hy]
  cases s.ttb.lookup y with
  | none => rfl
  | some r => simp [(hf r).place]

end State.KeepsRecords

theorem State.onEvent_keepsRecords (s : State) (k : ChanNum) (l : Latch) (x : Count) :
    s.KeepsRecords (s.onEvent k l x) := by
  unfold State.onEvent
  dsimp only
  split
  · cases (s.chans.get k).config.stampOnPass with
    | none => exact State.KeepsRecords.of_ttb rfl
    | some st =>
      exact State.KeepsRecords.trans (State.KeepsRecords.of_ttb rfl)
        (State.KeepsRecords.write (State.modChan k _ s) _ (Record.stampWith st) (Record.kept_stampWith st))
  · exact State.KeepsRecords.of_ttb (State.arm_ttb _ k x)

theorem State.pointEvent_keepsRecords (x : Count) (s : State) (k : ChanNum) : s.KeepsRecords (s.pointEvent x k) := by
  unfold State.pointEvent
  split
  · exact State.onEvent_keepsRecords s k _ x
  · exact State.KeepsRecords.of_ttb (State.endPulse_ttb s k _ x)
  · exact State.KeepsRecords.of_ttb rfl

theorem State.pointEvents_keepsRecords (s : State) (ks : List ChanNum) (x : Count) :
    s.KeepsRecords (s.pointEvents ks x) :=
  State.KeepsRecords.foldl _ (State.pointEvent_keepsRecords x) _ s

/-! ## Entering LOST (R37) -/

theorem State.enterLost_frame (s : State) :
    s.enterLost = { s with ttb := s.enterLost.ttb, events := s.enterLost.events } := rfl

@[simp] theorem State.enterLost_tracking (s : State) : s.enterLost.ttb.tracking = .lost := rfl

@[simp] theorem State.requested_enterLost (s : State) (q : PortNum) (e : Event) :
    s.enterLost.requested q e = (s.requested q e || e == .lost) :=
  State.requested_raise _ .lost e q

@[simp] theorem State.enterLost_enable (s : State) (q : PortNum) :
    (s.enterLost.events.get q).enable = (s.events.get q).enable := by
  simp [State.enterLost]

theorem State.enterLost_lookup (s : State) (y : Word) :
    s.enterLost.ttb.lookup y = (s.ttb.lookup y).map fun r => r.rejectIf r.untrusted .lost :=
  Ttb.lookup_mapRecords s.ttb y (fun r => r.rejectIf r.untrusted .lost) fun _ => Record.rejectIf_serial _ _ _

theorem State.enterLost_keepsRecords (s : State) : s.KeepsRecords s.enterLost := fun y =>
  ⟨_, fun _ => Record.kept_rejectIf _ _ _, s.enterLost_lookup y⟩

/-- Every blank on the line that is not VOID carries a reject once LOST is entered. -/
theorem State.enterLost_rejects {s : State} {y : Word} {r : Record} (h : s.enterLost.ttb.lookup y = some r)
    (line : r.place = .inLine) (kind : r.kind ≠ .void) : r.reject.isSome = true := by
  rw [State.enterLost_lookup, Option.map_eq_some_iff] at h
  obtain ⟨r₀, -, rfl⟩ := h
  have kept := Record.kept_rejectIf r₀.untrusted .lost r₀
  have untrusted : r₀.untrusted = true := by
    rw [kept.place] at line
    rw [kept.kind] at kind
    simp [Record.untrusted, Record.inLine, line, kind]
  rw [untrusted, Record.rejectIf_true, Record.rejectWith_eq]
  rfl

/-! ## Free choices that a channel's event does not use -/

theorem State.settlePair_frees (s : State) (k : ChanNum) : (s.settlePair k).frees = s.frees := by
  unfold State.settlePair; split <;> rfl

theorem State.applyPending_frees (s : State) (k : ChanNum) : (s.applyPending k).frees = s.frees := by
  unfold State.applyPending
  split
  · rfl
  · rw [State.settlePair_frees]; rfl

theorem State.arm_frees (s : State) (k : ChanNum) (x : Count) : (s.arm k x).frees = s.frees := by
  simp [State.arm]

theorem State.pointEvent_frees (x : Count) (s : State) (k : ChanNum) : (s.pointEvent x k).frees = s.frees := by
  unfold State.pointEvent
  split
  · unfold State.onEvent
    dsimp only
    split
    · rfl
    · rw [State.arm_frees]; rfl
  · simp [State.endPulse, State.arm_frees, State.applyPending_frees]
  · rfl

theorem State.cutPulse_frees (after : ChanState) (s : State) (k : ChanNum) : (s.cutPulse after k).frees = s.frees := by
  unfold State.cutPulse
  split
  · rfl
  · rw [State.applyPending_frees]; rfl

/-- Work that uses no free choice uses none over a list of channels. -/
theorem State.foldl_frees (f : State → ChanNum → State) (h : ∀ (s : State) k, (f s k).frees = s.frees)
    (ks : List ChanNum) : ∀ s : State, (ks.foldl f s).frees = s.frees := by
  induction ks with
  | nil => exact fun _ => rfl
  | cons k rest ih => exact fun s => (ih (f s k)).trans (h s k)

/-! ## The channels a count has reached -/

theorem State.mem_atPoints (s : State) (x : Count) (k : ChanNum) :
    k ∈ s.atPoints x ↔ (s.chans.get k).atPoint s.phu.p x = true := by
  simp [State.atPoints, mem_allChans]

theorem nodup_allChans : allChans.Nodup := by decide

theorem State.nodup_atPoints (s : State) (x : Count) : (s.atPoints x).Nodup := nodup_allChans.filter _

theorem nodup_inTurn (turn : Nat → Nat) {ks : List ChanNum} (h : ks.Nodup) : (inTurn turn ks).Nodup :=
  (inTurn_perm turn ks).nodup_iff.mpr h

theorem Phu.presented_eq_true (u : Phu) : u.presented = true ↔ u.phase = .synced ∧ u.debt = 0 := by
  simp [Phu.presented]

theorem Phu.presented_unsynced {u : Phu} (h : u.phase = .unsynced) : u.presented = false := by
  simp [Phu.presented, h]

/-- While the count is presented every channel at its point takes its event, once each, and one free choice is used. -/
theorem State.runPoints_presented (s : State) (x : Count) (h : s.phu.presented = true) :
    ∃ ks : List ChanNum, ks.Nodup ∧ (∀ k, k ∈ ks ↔ (s.chans.get k).atPoint s.phu.p x = true) ∧
      s.runPoints x = { ks.foldl (State.pointEvent x) s with frees := s.frees + 1 } := by
  refine ⟨inTurn (Config.eventTurn s.frees) (s.atPoints x), nodup_inTurn _ (s.nodup_atPoints x), fun k => ?_, ?_⟩
  · rw [mem_inTurn, State.mem_atPoints]
  · simp only [State.runPoints, h, if_true, State.pointEvents, State.chose,
      State.foldl_frees _ (State.pointEvent_frees x)]

theorem State.runPoints_hidden (s : State) (x : Count) (h : s.phu.presented = false) : s.runPoints x = s := by
  simp [State.runPoints, h]

/-- A backward count takes the off events alone, of the pulses whose off point the count has reached (R118). -/
theorem State.runOffPoints_presented (s : State) (x : Count) (h : s.phu.presented = true) :
    ∃ ks : List ChanNum, ks.Nodup ∧
      (∀ k, k ∈ ks ↔ (s.chans.get k).state.phase = .on ∧ (s.chans.get k).atPoint s.phu.p x = true) ∧
      s.runOffPoints x = ks.foldl (State.pointEvent x) s := by
  refine ⟨_, nodup_allChans.filter _, fun k => ?_, by simp only [State.runOffPoints, h, if_true]; rfl⟩
  simp [mem_allChans]

theorem State.runOffPoints_hidden (s : State) (x : Count) (h : s.phu.presented = false) : s.runOffPoints x = s := by
  simp [State.runOffPoints, h]

/-- With no channel at its point, the points change nothing but the count of free choices. -/
theorem State.runPoints_none (s : State) (x : Count) (h : ∀ k, (s.chans.get k).atPoint s.phu.p x = false) :
    s.runPoints x = { s with frees := (s.runPoints x).frees } := by
  cases hp : s.phu.presented with
  | false => rw [State.runPoints_hidden s x hp]
  | true =>
    obtain ⟨ks, -, mem, eq⟩ := s.runPoints_presented x hp
    have : ks = [] := List.eq_nil_iff_forall_not_mem.mpr fun k hk =>
      absurd ((mem k).mp hk) (by simp [h k])
    rw [eq, this]
    rfl

theorem State.runOffPoints_none (s : State) (x : Count)
    (h : ∀ k, (s.chans.get k).state.phase = .on → (s.chans.get k).atPoint s.phu.p x = false) :
    s.runOffPoints x = s := by
  cases hp : s.phu.presented with
  | false => exact State.runOffPoints_hidden s x hp
  | true =>
    obtain ⟨ks, -, mem, eq⟩ := s.runOffPoints_presented x hp
    have : ks = [] := List.eq_nil_iff_forall_not_mem.mpr fun k hk => by
      obtain ⟨on, at'⟩ := (mem k).mp hk
      exact absurd at' (by simp [h k on])
    rw [eq, this]
    rfl

end Sys2Proof.Machine

/-! PROOFS. The motion of the line: what a count, an advance, a crossing and an index edge make of the state, one equation
for each case. -/

namespace Sys2Proof.Machine

/-! ## The rows of motion as `exec` gives them -/

theorem exec_forwardCount_eq (s : State) (jumped feed splice : Bool) :
    exec (.forwardCount jumped feed splice) s = .next (s.countForward jumped feed splice) := rfl

theorem exec_backwardCount_eq (s : State) (jumped : Bool) :
    exec (.backwardCount jumped) s = .next (s.countBackward jumped) := rfl

theorem exec_indexEdge_eq (s : State) (feed splice : Bool) :
    exec (.indexEdge feed splice) s = .next (s.index feed splice) := rfl

theorem completes_next {t : State} {P : State → Prop} (h : P t) : Completes (.next t) P := ⟨t, rfl, h⟩

/-! ## Counts (R2) -/

/-- The state once a count has been noted and mc has moved to `mc`. -/
def State.counted (d : Dir) (jumped : Bool) (mc : Nat) (s : State) : State :=
  s.modPhu fun u => { u.noteCount d jumped with mc := mc }

theorem State.countForward_inside {s : State} (jumped feed splice : Bool) (h : s.phu.mc + 1 < s.phu.p) :
    s.countForward jumped feed splice
      = (s.counted .forward jumped (s.phu.mc + 1)).runPoints ⟨s.phu.cycle, s.phu.mc + 1⟩ := by
  simp only [State.countForward, State.modPhu_phu, Phu.noteCount, h, if_true]
  rfl

/-- A forward count at P - 1 that is no crossing, the phase being UNSYNCED. -/
theorem State.countForward_wrap {s : State} (jumped feed splice : Bool) (h : ¬ s.phu.mc + 1 < s.phu.p)
    (phase : s.phu.phase = .unsynced) : s.countForward jumped feed splice = s.counted .forward jumped 0 := by
  simp only [State.countForward, State.modPhu_phu, Phu.noteCount, h, phase, if_true, if_false]
  rfl

/-- A forward crossing without debt is an advance (R9). -/
theorem State.countForward_advance {s : State} (jumped feed splice : Bool) (h : ¬ s.phu.mc + 1 < s.phu.p)
    (phase : s.phu.phase = .synced) (debt : s.phu.debt = 0) :
    s.countForward jumped feed splice = (s.counted .forward jumped 0).advanceCount feed splice := by
  simp only [State.countForward, State.modPhu_phu, Phu.noteCount, h, phase, debt, if_true, if_false, reduceCtorEq]
  rfl

/-- A forward crossing with debt repays one step of it (R8). -/
theorem State.countForward_repay {s : State} (jumped feed splice : Bool) (h : ¬ s.phu.mc + 1 < s.phu.p)
    (phase : s.phu.phase = .synced) (debt : s.phu.debt ≠ 0) :
    s.countForward jumped feed splice = (s.counted .forward jumped 0).countMissing.repay := by
  simp only [State.countForward, State.modPhu_phu, Phu.noteCount, h, phase, debt, if_false, reduceCtorEq]
  rfl

theorem State.countBackward_inside {s : State} (jumped : Bool) (h : s.phu.mc ≠ 0) :
    s.countBackward jumped
      = (s.counted .backward jumped (s.phu.mc - 1)).runOffPoints ⟨s.phu.cycle, s.phu.mc - 1⟩ := by
  simp only [State.countBackward, State.modPhu_phu, Phu.noteCount, h, if_false]
  rfl

theorem State.countBackward_wrap {s : State} (jumped : Bool) (h : s.phu.mc = 0) (phase : s.phu.phase = .unsynced) :
    s.countBackward jumped = s.counted .backward jumped (s.phu.p - 1) := by
  simp only [State.countBackward, State.modPhu_phu, Phu.noteCount, h, phase, if_true]
  rfl

theorem State.countBackward_crossing {s : State} (jumped : Bool) (h : s.phu.mc = 0) (phase : s.phu.phase = .synced) :
    s.countBackward jumped = (s.counted .backward jumped (s.phu.p - 1)).crossBackward := by
  simp only [State.countBackward, State.modPhu_phu, Phu.noteCount, h, phase, if_true, if_false, reduceCtorEq]
  rfl

/-! ## The missing-index counter (R6) -/

@[simp] theorem State.countMissing_phu (s : State) :
    s.countMissing.phu = { s.phu with missing := min (s.phu.missing + 1) 2 } := by
  simp [State.countMissing]

theorem State.countMissing_frame (s : State) :
    s.countMissing = { s with
      phu := { s.phu with missing := min (s.phu.missing + 1) 2 }, events := s.countMissing.events } := by
  unfold State.countMissing State.raiseIf
  split <;> rfl

@[simp] theorem State.countMissing_chans (s : State) : s.countMissing.chans = s.chans := by simp [State.countMissing]

@[simp] theorem State.countMissing_ttb (s : State) : s.countMissing.ttb = s.ttb := by simp [State.countMissing]

@[simp] theorem State.countMissing_frees (s : State) : s.countMissing.frees = s.frees := by simp [State.countMissing]

@[simp] theorem State.countMissing_ports (s : State) : s.countMissing.ports = s.ports := by simp [State.countMissing]

@[simp] theorem State.requested_countMissing (s : State) (q : PortNum) (e : Event) :
    s.countMissing.requested q e = (s.requested q e || (e == .slip && s.phu.missing == 1)) := by
  rw [State.countMissing, State.requested_raiseIf, Bool.and_comm]
  rfl

@[simp] theorem State.countMissing_enable (s : State) (q : PortNum) :
    (s.countMissing.events.get q).enable = (s.events.get q).enable := by
  rw [State.countMissing, State.raiseIf_events]
  split <;> simp

/-! ## The advance (R23 to R26) -/

/-- The advance up to the hand-off: the cycle number moved, the record at L departed, the one at Kc handed over. -/
def State.handedOver (s : State) : State :=
  ((s.modPhu fun u => { u with cycle := u.cycle + 1 }).modTable
    (Ttb.write (s.phu.cycle + 1 - BitVec.ofNat 16 s.ttb.l) Record.depart)).handOff

theorem State.advance_eq (s : State) (feed splice : Bool) :
    s.advance feed splice
      = s.handedOver.modTable (Ttb.create s.handedOver.phu.cycle s.handedOver.bfu.cutJob feed splice) := rfl

/-- Before the creation of its record an advance is the counting of batches at the new cycle number. -/
theorem State.handedOver_batchWork (s : State) :
    State.BatchWork (s.modPhu fun u => { u with cycle := u.cycle + 1 }) s.handedOver :=
  (State.batchWork_slots _ _ fun t => Ttb.write_frame t _ _).trans (State.handOff_batchWork _)

@[simp] theorem State.advance_phu (s : State) (feed splice : Bool) :
    (s.advance feed splice).phu = { s.phu with cycle := s.phu.cycle + 1 } :=
  s.handedOver_batchWork.phu

@[simp] theorem State.advance_ports (s : State) (feed splice : Bool) : (s.advance feed splice).ports = s.ports :=
  s.handedOver_batchWork.ports

@[simp] theorem State.advance_chans (s : State) (feed splice : Bool) : (s.advance feed splice).chans = s.chans :=
  s.handedOver_batchWork.chans

@[simp] theorem State.advance_frees (s : State) (feed splice : Bool) : (s.advance feed splice).frees = s.frees :=
  s.handedOver_batchWork.frees

@[simp] theorem State.advance_advances (s : State) (feed splice : Bool) :
    (s.advance feed splice).ttb.advances = s.ttb.advances + 1 := by
  have h : s.handedOver.ttb.advances = s.ttb.advances := by rw [s.handedOver_batchWork.table]; rfl
  rw [State.advance_eq, ← h]
  rfl

@[simp] theorem State.advance_tracking (s : State) (feed splice : Bool) :
    (s.advance feed splice).ttb.tracking = s.ttb.tracking := by
  have h : s.handedOver.ttb.tracking = s.ttb.tracking := by rw [s.handedOver_batchWork.table]; rfl
  rw [State.advance_eq, ← h]
  rfl

/-- The record an advance creates stands on the line. -/
theorem Ttb.newRecord_kept (t : Ttb) (c : Word) (job : JobNum) (feed splice : Bool) :
    (t.newRecord c job feed splice).serial = c ∧ (t.newRecord c job feed splice).place = .inLine := by
  unfold Ttb.newRecord
  dsimp only
  exact ⟨by rw [Record.rejectIf_serial, Record.rejectIf_serial],
    by rw [(Record.kept_rejectIf _ _ _).place, (Record.kept_rejectIf _ _ _).place]⟩

/-- An advance leaves a record of the new cycle's serial on the line (R26). -/
theorem State.advance_created (s : State) (feed splice : Bool) :
    ((s.advance feed splice).ttb.lookup (s.phu.cycle + 1)).any (fun r => r.place == .inLine) = true := by
  have cycle : s.handedOver.phu.cycle = s.phu.cycle + 1 := by rw [s.handedOver_batchWork.phu]; rfl
  obtain ⟨serial, place⟩ := Ttb.newRecord_kept s.handedOver.ttb (s.phu.cycle + 1) s.handedOver.bfu.cutJob feed splice
  have look : (s.advance feed splice).ttb.lookup (s.phu.cycle + 1)
      = some (s.handedOver.ttb.newRecord (s.phu.cycle + 1) s.handedOver.bfu.cutJob feed splice) := by
    rw [Ttb.lookup_eq_some, State.advance_eq, cycle]
    exact ⟨Bank.get_put_same _ _ _, serial⟩
  rw [look, Option.any_some, place]
  rfl

theorem State.advance_raises (s : State) (feed splice : Bool) :
    State.Raises batchEvents s (s.advance feed splice) :=
  (State.Raises.after (State.handOff_raises _) rfl : State.Raises batchEvents s s.handedOver).before rfl

/-! ## Crossings (R6 to R9) -/

/-- An advance by a count: some of the on events at the new count come before it, every other point event after it, each
channel once, and one free choice is used (R95). -/
theorem State.advanceCount_eq (s : State) (feed splice : Bool) (x : Count) (hx : x = ⟨s.phu.cycle + 1, 0⟩) :
    ∃ early late : List ChanNum, (early ++ late).Nodup ∧
      (∀ k, k ∈ early ++ late ↔ (s.chans.get k).atPoint s.phu.p x = true) ∧
      (∀ k ∈ early, (s.chans.get k).state.phase = .armed) ∧
      s.advanceCount feed splice = { late.foldl (State.pointEvent x)
          ((early.foldl (State.pointEvent x) s).countMissing.advance feed splice) with frees := s.frees + 1 } := by
  have armed : ∀ k, k ∈ s.early (s.atPoints x) ↔ (s.chans.get k).atPoint s.phu.p x = true ∧
      (s.chans.get k).state.phase = .armed ∧ Config.beforeAdvance s.frees k.val = true := by
    simp [State.early, State.mem_atPoints]
  refine ⟨inTurn (Config.eventTurn s.frees) (s.early (s.atPoints x)),
    inTurn (Config.eventTurn s.frees) ((s.atPoints x).filter fun k => !(s.early (s.atPoints x)).contains k),
    ?_, fun k => ?_, fun k hk => ?_, ?_⟩
  · refine List.Nodup.append (nodup_inTurn _ ((s.nodup_atPoints x).filter _))
      (nodup_inTurn _ ((s.nodup_atPoints x).filter _)) fun k he hl => ?_
    rw [mem_inTurn] at he hl
    simp [he] at hl
  · by_cases he : k ∈ s.early (s.atPoints x)
    · simp [he, ((armed k).mp he).1]
    · simp [he, State.mem_atPoints]
  · rw [mem_inTurn, armed] at hk
    exact hk.2.1
  · subst hx
    simp only [State.advanceCount, State.chose, State.foldl_frees _ (State.pointEvent_frees _), State.advance_frees,
      State.countMissing_frees]

theorem State.pointEvents_foldl_channelWork (s : State) (ks : List ChanNum) (x : Count) :
    s.ChannelWork (ks.foldl (State.pointEvent x) s) :=
  State.channelWork_foldl _ (State.pointEvent_channelWork x) ks s

/-- What an advance by a count makes of the Phase Unit and of the number of advances; it leaves the tracking state and the
ports. -/
theorem State.advanceCount_phu (s : State) (feed splice : Bool) :
    (s.advanceCount feed splice).phu
        = { s.phu with missing := min (s.phu.missing + 1) 2, cycle := s.phu.cycle + 1 } ∧
      (s.advanceCount feed splice).ttb.advances = s.ttb.advances + 1 ∧
      (s.advanceCount feed splice).ttb.tracking = s.ttb.tracking ∧
      (s.advanceCount feed splice).ports = s.ports := by
  obtain ⟨early, late, -, -, -, eq⟩ := s.advanceCount_eq feed splice _ rfl
  generalize (⟨s.phu.cycle + 1, 0⟩ : Count) = x at eq
  have first := s.pointEvents_foldl_channelWork early x
  have last := State.pointEvents_foldl_channelWork
    ((early.foldl (State.pointEvent x) s).countMissing.advance feed splice) late x
  rw [eq]
  refine ⟨?_, ?_, ?_, ?_⟩
  · simp [last.phu, first.phu]
  · dsimp only
    rw [last.table]
    simp only [State.advance_advances, State.countMissing_ttb]
    rw [first.table]
  · dsimp only
    rw [last.table]
    simp only [State.advance_tracking, State.countMissing_ttb]
    rw [first.table]
  · simp [last.ports, first.ports]

/-- The record an advance by a count creates still stands on the line once the point events are over. -/
theorem State.advanceCount_created (s : State) (feed splice : Bool) :
    ((s.advanceCount feed splice).ttb.lookup (s.phu.cycle + 1)).any (fun r => r.place == .inLine) = true := by
  obtain ⟨early, late, -, -, -, eq⟩ := s.advanceCount_eq feed splice _ rfl
  generalize (⟨s.phu.cycle + 1, 0⟩ : Count) = x at eq
  have created := State.advance_created (early.foldl (State.pointEvent x) s).countMissing feed splice
  have kept := State.KeepsRecords.foldl _ (State.pointEvent_keepsRecords x) late
    ((early.foldl (State.pointEvent x) s).countMissing.advance feed splice)
  rw [State.countMissing_phu, (s.pointEvents_foldl_channelWork early x).phu] at created
  rw [eq]
  exact (kept.any_place (s.phu.cycle + 1) .inLine).trans created

/-- The requests after an advance by a count: SLIP by the missing-index counter, and those of channels and batches. -/
theorem State.advanceCount_slip (s : State) (feed splice : Bool) (q : PortNum) :
    (s.advanceCount feed splice).requested q .slip = (s.requested q .slip || s.phu.missing == 1) := by
  obtain ⟨early, late, -, -, -, eq⟩ := s.advanceCount_eq feed splice _ rfl
  generalize (⟨s.phu.cycle + 1, 0⟩ : Count) = x at eq
  have first := State.pointEvents_raises s early x
  have last := State.pointEvents_raises ((early.foldl (State.pointEvent x) s).countMissing.advance feed splice) late x
  rw [eq]
  refine (last.only q .slip (by decide)).trans (((State.advance_raises _ feed splice).only q .slip (by decide)).trans ?_)
  rw [State.requested_countMissing, first.only q .slip (by decide), (s.pointEvents_foldl_channelWork early x).phu]
  rfl

@[simp] theorem State.repay_phu (s : State) : s.repay.phu = { s.phu with debt := s.phu.debt - 1 } := by
  unfold State.repay
  dsimp only
  split <;> rfl

/-- A repaying crossing touches the debt and the channels alone, and requests nothing. -/
theorem State.repay_frame (s : State) :
    s.repay = { s with phu := { s.phu with debt := s.phu.debt - 1 }, chans := s.repay.chans } := by
  unfold State.repay
  dsimp only
  split <;> rfl

/-- The last step of a debt ends inhibition, each channel resuming at the count reached (R8, R91). -/
theorem State.repay_get_last (s : State) (h : s.phu.debt = 1) (k : ChanNum) :
    s.repay.chans.get k = (s.chans.get k).resume true s.phu.p s.phu.speed s.phu.count := by
  simp [State.repay, h, State.endInhibition_get, Phu.count]

theorem State.repay_chans_owing (s : State) (h : 1 < s.phu.debt) : s.repay.chans = s.chans := by
  simp [State.repay, show ¬ s.phu.debt - 1 = 0 by omega]

/-- A backward crossing without debt starts inhibition (R8). -/
theorem State.crossBackward_start {s : State} (h : s.phu.debt = 0) :
    s.crossBackward = ((s.modPhu fun u => { u with debt := 1 }).raise .reverse).beginInhibition := by
  simp [State.crossBackward, h]

theorem State.crossBackward_more {s : State} (h : s.phu.debt ≠ 0) (more : s.phu.debt < 15) :
    s.crossBackward = s.modPhu fun u => { u with debt := u.debt + 1 } := by
  simp [State.crossBackward, h, more]

/-- A backward crossing at a debt of 15 enters LOST and ends inhibition (R8). -/
theorem State.crossBackward_overflow {s : State} (h : 15 ≤ s.phu.debt) :
    s.crossBackward = ((s.modPhu fun u => { u with debt := 0 }).enterLost).endInhibition false := by
  simp [State.crossBackward, show ¬ s.phu.debt = 0 by omega, show ¬ s.phu.debt < 15 by omega]

/-- What a backward crossing makes of the Phase Unit: the debt alone moves. -/
theorem State.crossBackward_phu (s : State) :
    s.crossBackward.phu = { s.phu with debt := if s.phu.debt < 15 then s.phu.debt + 1 else 0 } := by
  by_cases none : s.phu.debt = 0
  · rw [State.crossBackward_start none, (State.beginInhibition_channelWork _).phu]
    simp [none]
  · by_cases more : s.phu.debt < 15
    · simp [State.crossBackward_more none more, more]
    · rw [State.crossBackward_overflow (by omega), (State.endInhibition_channelWork _ _).phu, State.enterLost_frame]
      simp [more]

theorem State.crossBackward_ports (s : State) : s.crossBackward.ports = s.ports := by
  by_cases none : s.phu.debt = 0
  · rw [State.crossBackward_start none, (State.beginInhibition_channelWork _).ports]
    rfl
  · by_cases more : s.phu.debt < 15
    · rw [State.crossBackward_more none more, State.modPhu_ports]
    · rw [State.crossBackward_overflow (by omega), (State.endInhibition_channelWork _ _).ports, State.enterLost_frame]
      rfl

/-- A backward crossing requests no SLIP. -/
theorem State.crossBackward_slip (s : State) (q : PortNum) : s.crossBackward.requested q .slip = s.requested q .slip := by
  by_cases none : s.phu.debt = 0
  · rw [State.crossBackward_start none, (State.beginInhibition_raises _).only q .slip (by decide), State.requested_raise]
    exact Bool.or_false _
  · by_cases more : s.phu.debt < 15
    · rw [State.crossBackward_more none more]
      rfl
    · rw [State.crossBackward_overflow (by omega),
        State.requested_congr (State.endInhibition_events _ _), State.requested_enterLost]
      exact Bool.or_false _

/-! ## Index edges (R3 to R5) -/

theorem State.index_ignored {s : State} (feed splice : Bool) (h : s.phu.lastDir ≠ some .forward) :
    s.index feed splice = s := by
  simp [State.index, h]

theorem State.index_unsynced {s : State} (feed splice : Bool) (h : s.phu.lastDir = some .forward)
    (phase : s.phu.phase = .unsynced) : s.index feed splice = s.synchronise := by
  simp [State.index, h, phase]

theorem State.index_synced {s : State} (feed splice : Bool) (h : s.phu.lastDir = some .forward)
    (phase : s.phu.phase = .synced) : s.index feed splice = s.correct feed splice := by
  simp [State.index, h, phase]

/-- SLIP and the entry into LOST of an edge beyond the tolerance (R5). -/
def State.slipIf (beyond : Bool) (s : State) : State := if beyond then (s.raise .slip).enterLost else s

@[simp] theorem State.slipIf_phu (s : State) (b : Bool) : (s.slipIf b).phu = s.phu := by cases b <;> rfl

@[simp] theorem State.slipIf_ports (s : State) (b : Bool) : (s.slipIf b).ports = s.ports := by cases b <;> rfl

@[simp] theorem State.slipIf_chans (s : State) (b : Bool) : (s.slipIf b).chans = s.chans := by cases b <;> rfl

@[simp] theorem State.slipIf_frees (s : State) (b : Bool) : (s.slipIf b).frees = s.frees := by cases b <;> rfl

theorem State.slipIf_ttb (s : State) (b : Bool) : (s.slipIf b).ttb = if b then s.enterLost.ttb else s.ttb := by
  cases b <;> rfl

@[simp] theorem State.requested_slipIf (s : State) (b : Bool) (q : PortNum) (e : Event) :
    (s.slipIf b).requested q e = (s.requested q e || (b && (e == .slip || e == .lost))) := by
  cases b
  · simp [State.slipIf]
  · simp [State.slipIf, Bool.or_assoc]

@[simp] theorem State.slipIf_enable (s : State) (b : Bool) (q : PortNum) :
    ((s.slipIf b).events.get q).enable = (s.events.get q).enable := by
  cases b
  · rfl
  · simp [State.slipIf]

theorem State.slipIf_keepsRecords (s : State) (b : Bool) : s.KeepsRecords (s.slipIf b) := by
  cases b
  · exact State.KeepsRecords.of_ttb rfl
  · exact State.enterLost_keepsRecords (s.raise .slip)

/-- The edge once whole, before any point event: the crossing it may take, SLIP and LOST, the counter cleared. -/
def State.edgeWhole (crosses beyond feed splice : Bool) (s : State) : State :=
  State.modPhu (fun u => { u with missing := 0 })
    (State.slipIf beyond
      (let now := s.modPhu fun u => { u with mc := 0 }
       if crosses then now.countMissing.crossForward feed splice else now))

/-- A forward index edge while SYNCED, from the sign of the distance and from the tolerance (R5, R117). -/
theorem State.correct_eq (s : State) (feed splice : Bool) :
    s.correct feed splice =
      (let whole := s.edgeWhole (decide (s.phu.distance < 0)) (decide ((s.phu.t : Int) < |s.phu.distance|)) feed splice
       if decide (s.phu.distance < 0) && s.phu.debt == 0 then whole.runPoints whole.phu.count else whole) := by
  simp only [State.correct, State.edgeWhole, State.slipIf, decide_eq_true_eq]

theorem State.runPoints_keepsRecords (s : State) (x : Count) : s.KeepsRecords (s.runPoints x) := by
  unfold State.runPoints
  split
  · exact s.pointEvents_keepsRecords _ x
  · exact State.KeepsRecords.of_ttb rfl

/-- After the edge is whole only the channels' events are left: they are channel work, keep the records, and request CHANNEL
and STAGED alone. -/
theorem State.correct_points (s : State) (feed splice : Bool) :
    let whole := s.edgeWhole (decide (s.phu.distance < 0)) (decide ((s.phu.t : Int) < |s.phu.distance|)) feed splice
    whole.ChannelWork (s.correct feed splice) ∧ whole.KeepsRecords (s.correct feed splice) ∧
      State.Raises channelEvents whole (s.correct feed splice) := by
  rw [State.correct_eq]
  dsimp only
  split
  · exact ⟨State.runPoints_channelWork _ _, State.runPoints_keepsRecords _ _, State.runPoints_raises _ _⟩
  · exact ⟨State.ChannelWork.refl _, State.KeepsRecords.of_ttb rfl, State.Raises.refl _ _⟩

/-- A late edge takes no crossing and reaches no point. -/
theorem State.correct_late {s : State} (feed splice : Bool) (late : 0 ≤ s.phu.distance) :
    s.correct feed splice = s.edgeWhole false (decide ((s.phu.t : Int) < |s.phu.distance|)) feed splice := by
  simp [State.correct_eq, not_lt.mpr late]

/-- An early edge with debt repays one step of it. -/
theorem State.correct_repay {s : State} (feed splice : Bool) (early : s.phu.distance < 0) (debt : s.phu.debt ≠ 0) :
    s.correct feed splice = s.edgeWhole true (decide ((s.phu.t : Int) < |s.phu.distance|)) feed splice := by
  simp [State.correct_eq, early, debt]

/-- An early edge without debt is an advance, whose points come once it is whole. -/
theorem State.correct_advance {s : State} (feed splice : Bool) (early : s.phu.distance < 0) (debt : s.phu.debt = 0) :
    s.correct feed splice =
      (let whole := s.edgeWhole true (decide ((s.phu.t : Int) < |s.phu.distance|)) feed splice
       whole.runPoints whole.phu.count) := by
  simp [State.correct_eq, early, debt]

end Sys2Proof.Machine

/-! PROOFS. What the commands of the ports keep: the cycle number, the ranges of the Phase Unit and those of the ports
(Table 1-1, Table 3-1, R176), one lemma per command over the lemmas about the shared operations. -/

namespace Sys2Proof.Machine

/-! ## The lengths of payloads (R176) -/

@[simp] theorem natBytes16_length (n : Nat) : (natBytes16 n).length = 2 := rfl

@[simp] theorem natBytes32_length (n : Nat) : (natBytes32 n).length = 4 := rfl

@[simp] theorem phaseBytes_length (u : Phu) (tr : Tracking) : (phaseBytes u tr).length = 11 := rfl

@[simp] theorem Record.bytes_length (r : Record) : r.bytes.length = 12 := rfl

@[simp] theorem entryRecordBytes_length (r : Option Record) : (entryRecordBytes r).length = 12 := by cases r <;> rfl

@[simp] theorem BatchRecord.bytes_length (b : BatchRecord) : b.bytes.length = 24 := rfl

@[simp] theorem OpenBatch.bytes_length (b : OpenBatch) : b.bytes.length = 22 := rfl

@[simp] theorem State.jobBytes_length (s : State) (j : JobNum) : (s.jobBytes j).length = 14 := rfl

@[simp] theorem Port.bytes_length (q : Port) (p : PortNum) : (q.bytes p).length = 8 := rfl

@[simp] theorem FaultState.bytes_length (f : FaultState) (p : PortNum) : (f.bytes p).length = 12 := by cases f <;> rfl

@[simp] theorem ChanConfig.bytes_length (c : ChanConfig) (f : ResultField) : (c.bytes f).length = 28 := rfl

@[simp] theorem ChanState.latchBytes_length (c : ChanState) : c.latchBytes.length = 12 := by
  unfold ChanState.latchBytes; split <;> rfl

@[simp] theorem ChanState.gatingBytes_length (c : ChanState) : c.gatingBytes.length = 2 := by
  unfold ChanState.gatingBytes; split <;> rfl

@[simp] theorem Channel.bytes_length (ch : Channel) (k : ChanNum) (f g : ResultField) : (ch.bytes k f g).length = 81 := by
  unfold Channel.bytes
  cases ch.pending <;> simp

/-- A list of parts of one length. -/
theorem length_flatMap_const {α β : Type} (n : Nat) (f : α → List β) (h : ∀ a, (f a).length = n) (l : List α) :
    (l.flatMap f).length = n * l.length := by
  simp [List.length_flatMap, h, Nat.mul_comm]

theorem State.windowPayload_length (s : State) (p : PortNum) :
    (s.windowPayload p).length = 5 + 12 * (s.ports.get p).window.length := by
  simp [State.windowPayload, length_flatMap_const 12]
  omega

theorem Snapshot.bytes_length (w : Snapshot) : w.bytes.length = 120 := by
  have chans : (w.chans.toList.flatMap ChanView.bytes).length = 7 * 16 := by
    rw [length_flatMap_const 7 _ fun _ => rfl]
    simp
  simp only [Snapshot.bytes, List.length_append, chans]
  rfl

/-! ## The ranges kept -/

/-- From `s` to `t` the cycle number stays, and the ranges of the Phase Unit and of the ports hold still. -/
structure State.KeepsRanges (s t : State) : Prop where
  cycle : t.phu.cycle = s.phu.cycle
  phase : s.phu.Ok → t.phu.Ok
  ports : (∀ q, (s.ports.get q).Ok) → ∀ q, (t.ports.get q).Ok

namespace State.KeepsRanges

variable {s t u : State}

theorem of_eq (phu : t.phu = s.phu) (ports : t.ports = s.ports) : s.KeepsRanges t :=
  ⟨by rw [phu], by rw [phu]; exact id, by rw [ports]; exact id⟩

theorem trans (h : s.KeepsRanges t) (g : t.KeepsRanges u) : s.KeepsRanges u :=
  ⟨g.cycle.trans h.cycle, fun x => g.phase (h.phase x), fun x => g.ports (h.ports x)⟩

theorem of_channelWork (h : s.ChannelWork t) : s.KeepsRanges t := of_eq h.phu h.ports

theorem of_batchWork (h : s.BatchWork t) : s.KeepsRanges t := of_eq h.phu h.ports

/-- A change of one port that keeps its ranges. -/
theorem modPort (h : s.KeepsRanges t) (p : PortNum) (f : Port → Port) (hf : (t.ports.get p).Ok → (f (t.ports.get p)).Ok) :
    s.KeepsRanges (t.modPort p f) := by
  refine ⟨h.cycle, h.phase, fun x q => ?_⟩
  rw [State.modPort_ports, Bank.get_modify]
  split
  · exact hf (h.ports x p)
  · exact h.ports x q

/-- An answer whose payload fits its length byte. -/
theorem answer (h : s.KeepsRanges t) (p : PortNum) (st : Status) (code : Byte) (bs : List Byte)
    (fits : (t.ports.get p).Ok → bs.length ≤ 255) : s.KeepsRanges (t.answer p st code bs) :=
  h.modPort p _ fun ok => ⟨ok.base, ok.length, ok.fault, fits ok⟩

/-- An answer with a payload of `n` bytes, after work that leaves the Phase Unit and the ports. -/
theorem answered (p : PortNum) (st : Status) (code : Byte) (bs : List Byte) (n : Nat)
    (len : bs.length = n := by rfl) (fits : n ≤ 255 := by decide) (phu : t.phu = s.phu := by rfl)
    (ports : t.ports = s.ports := by rfl) : s.KeepsRanges (t.answer p st code bs) :=
  (of_eq phu ports).answer p st code bs fun _ => len ▸ fits

/-- An empty answer. -/
theorem emptied (h : s.KeepsRanges t) (p : PortNum) (st : Status) (code : Byte) : s.KeepsRanges (t.answer p st code []) :=
  h.answer p st code [] fun _ => Nat.zero_le _

/-- A snapshot stored or cleared. -/
theorem setSnapshot (h : s.KeepsRanges t) (p : PortNum) (x : Option Snapshot) : s.KeepsRanges (t.setSnapshot p x) :=
  ⟨h.cycle, fun ok => { h.phase ok with }, h.ports⟩

/-- A fault whose record holds the parts its kind has (Table 3-5). -/
theorem fault (s : State) (p : PortNum) (f : FaultRecord) (shaped : f.shaped = true) : s.KeepsRanges (s.fault p f) := by
  have frame := State.fault_frame s p f
  refine ⟨by rw [frame], by rw [frame]; exact id, fun ok q => ?_⟩
  rw [State.fault_get]
  split
  · refine ⟨(ok q).base, (ok q).length, fun more g hg => ?_, Nat.zero_le _⟩
    cases hx : (s.ports.get q).fault with
    | clear =>
      simp only [hx, FaultState.meet, FaultState.frozen.injEq] at hg
      exact hg.2 ▸ shaped
    | frozen m first =>
      simp only [hx, FaultState.meet, FaultState.frozen.injEq] at hg
      exact hg.2 ▸ (ok q).fault m first hx
  · exact ok q

theorem privileged (s : State) (p : PortNum) (code : Byte) (allowed : Bool) (body : State → State)
    (h : s.KeepsRanges (body s)) : s.KeepsRanges (s.privileged p code allowed body) := by
  cases allowed
  · exact fault s p _ rfl
  · exact h

theorem openWrite (s : State) (p : PortNum) : s.KeepsRanges (s.openWrite p) := by
  refine ⟨by rw [State.openWrite_phu], by rw [State.openWrite_phu]; exact id, fun ok q => ?_⟩
  rw [State.openWrite_get]
  split
  · exact ⟨(ok q).base, (ok q).length, (ok q).fault, (ok q).payload⟩
  · exact ok q

end State.KeepsRanges

/-- A transaction keeps the ranges if its body does. -/
theorem transact_keepsRanges (p : PortNum) (body : State → State) (h : ∀ s : State, s.KeepsRanges (body s)) (s : State) :
    Completes (transact p body s) s.KeepsRanges := by
  by_cases init : s.bti = .init
  · rw [transact_init p body s init]
    exact completes_next (State.KeepsRanges.of_eq rfl rfl)
  · rw [transact_next p body s init]
    exact completes_next (((State.KeepsRanges.openWrite s p).trans (h _)).trans (State.KeepsRanges.of_eq rfl rfl))

/-- A command that needs a privilege keeps the ranges if its body does. -/
theorem transact_privileged_keepsRanges (p : PortNum) (code : Byte) (allowed : State → Bool) (body : State → State)
    (h : ∀ s : State, s.KeepsRanges (body s)) (s : State) :
    Completes (transact p (fun s => s.privileged p code (allowed s) body) s) s.KeepsRanges :=
  transact_keepsRanges p _ (fun s => State.KeepsRanges.privileged s p code (allowed s) body (h s)) s

/-! ## The line commands -/

theorem State.keepsRanges_refl (s : State) : s.KeepsRanges s := State.KeepsRanges.of_eq rfl rfl

theorem State.purge_keepsRanges (p : PortNum) (s : State) : s.KeepsRanges (s.purge p) :=
  .answered p .ok Code.purge _ 1

theorem State.rejectRange_keepsRanges (p : PortNum) (a b : Nat) (s : State) : s.KeepsRanges (s.rejectRange p a b) := by
  unfold State.rejectRange
  split
  · exact .answered p _ _ _ 0
  · exact .answered p _ _ _ 1

/-- A taken SET_LINE keeps the ranges: its checked P and limited T, and mc, debt and counter cleared with a changed P. -/
theorem State.takeLine_keepsRanges (l kc counts t : Nat) (s : State) (low : 256 ≤ counts) (high : counts ≤ 16384) :
    s.KeepsRanges (s.takeLine l kc counts t) := by
  have tolerance : min t toleranceLimit ≤ 63 := Nat.min_le_right _ _
  unfold State.takeLine
  dsimp only
  split
  · exact ⟨rfl, fun ok => { ok with tolerance }, id⟩
  · have work := State.beginInhibition_channelWork
      (((s.modTable (Ttb.setLine l kc)).modPhu fun u => { u with t := min t toleranceLimit }).modPhu (Phu.setCounts counts))
    refine ⟨?_, fun ok => ?_, fun ok => ?_⟩
    · dsimp only
      rw [work.phu]
      rfl
    · dsimp only
      rw [work.phu]
      exact ⟨⟨low, high⟩, show 0 < counts by omega, tolerance, Nat.zero_le _, Nat.zero_le _, ok.speed, fun _ => rfl⟩
    · dsimp only
      rw [work.ports]
      exact ok

/-- What the operand checks of SET_LINE say (R42). -/
theorem State.lineOperandsOk_iff (s : State) (l kc counts : Nat) :
    s.lineOperandsOk l kc counts = true ↔ 2 ≤ l ∧ l ≤ 48 ∧ 1 ≤ kc ∧ kc < l ∧ 256 ≤ counts ∧ counts ≤ 16384 ∧
      ∀ k, (s.chans.get k).config.sp < l ∧ ∀ c ∈ (s.chans.get k).pending, c.sp < l := by
  simp only [State.lineOperandsOk, Bool.and_eq_true, decide_eq_true_eq, Bank.all_iff, Channel.fits, Option.all_eq_true]
  constructor
  · rintro ⟨⟨⟨⟨⟨⟨h1, h2⟩, h3⟩, h4⟩, h5⟩, h6⟩, h7⟩
    exact ⟨h1, h2, h3, by omega, h5, h6, h7⟩
  · rintro ⟨h1, h2, h3, h4, h5, h6, h7⟩
    exact ⟨⟨⟨⟨⟨⟨h1, h2⟩, h3⟩, by omega⟩, h5⟩, h6⟩, h7⟩

theorem State.setLine_keepsRanges (p : PortNum) (l kc counts t : Nat) (s : State) :
    s.KeepsRanges (s.setLine p l kc counts t) := by
  unfold State.setLine
  split
  · exact .answered p _ _ _ 0
  · next operands =>
    obtain ⟨-, -, -, -, low, high, -⟩ := (s.lineOperandsOk_iff l kc counts).mp (by simpa using operands)
    split
    · exact .answered p _ _ _ 0
    · exact (s.takeLine_keepsRanges l kc counts t low high).emptied p _ _

/-! ## Record access -/

/-- Every fault that the checks of a record's address find holds the parts of its kind (R54 to R58). -/
theorem Port.reachIndex_shaped (q : Port) (l : Nat) (write : Bool) (code : Byte) (i : Nat) (f : FaultRecord)
    (h : q.reachIndex l write code i = .fault f) : f.shaped = true := by
  unfold Port.reachIndex at h
  split at h
  · cases h
  · split at h
    · cases h; rfl
    · split at h
      · cases h; rfl
      · split at h
        · cases h; rfl
        · split at h
          · cases h
          · cases h; rfl

theorem Port.reachSerial_shaped (q : Port) (l : Nat) (write : Bool) (code : Byte) (serial : Word) (f : FaultRecord)
    (h : q.reachSerial l write code serial = .fault f) : f.shaped = true := by
  unfold Port.reachSerial at h
  dsimp only at h
  split at h
  · cases h
  · split at h
    · cases h; rfl
    · split at h
      · cases h; rfl
      · split at h
        · cases h
        · cases h; rfl

theorem State.readReached_keepsRanges (p : PortNum) (code : Byte) (reach : Reach) (s : State)
    (shaped : ∀ f, reach = .fault f → f.shaped = true) : s.KeepsRanges (s.readReached p code reach) := by
  cases reach with
  | frozen => exact .answered p _ _ _ 0
  | fault f => exact State.KeepsRanges.fault s p f (shaped f rfl)
  | serial x =>
    unfold State.readReached
    dsimp only
    split
    · exact .answered p _ _ _ 4
    · exact .answered p _ _ _ 16

theorem State.writeReached_keepsRanges (p : PortNum) (code : Byte) (reach : Reach) (entries : List RawEntry) (s : State)
    (shaped : ∀ f, reach = .fault f → f.shaped = true) : s.KeepsRanges (s.writeReached p code reach entries) := by
  cases reach with
  | frozen => exact .answered p _ _ _ 0
  | fault f => exact State.KeepsRanges.fault s p f (shaped f rfl)
  | serial x =>
    unfold State.writeReached
    dsimp only
    split
    · exact .answered p _ _ _ 4
    · split
      · unfold State.writeFound
        split
        · exact .answered p _ _ _ 4
        · exact .answered p _ _ _ 8
      · exact .answered p _ _ _ 4

theorem State.readWindow_keepsRanges (p : PortNum) (s : State) :
    s.KeepsRanges (if (s.ports.get p).window.access.allows false then s.answer p .ok Code.readWindow (s.windowPayload p)
      else s.fault p ⟨.access, Code.readWindow, none, none, none, (s.ports.get p).reference⟩) := by
  split
  · refine s.keepsRanges_refl.answer p _ _ _ fun ok => ?_
    have := ok.length
    rw [State.windowPayload_length]
    omega
  · exact State.KeepsRanges.fault s p _ rfl

/-- A field list that could not have come whole answers SHORT; another is written (R174, log 21). -/
theorem State.writeOrShort_keepsRanges (p : PortNum) (code : Byte) (reach : Reach) (entries : List RawEntry) (s : State)
    (shaped : ∀ f, reach = .fault f → f.shaped = true) :
    s.KeepsRanges (if maxEntries < entries.length then s.answer p .short code []
      else s.writeReached p code reach entries) := by
  split
  · exact .answered p _ _ _ 0
  · exact s.writeReached_keepsRanges p code reach entries shaped

/-! ## Port commands -/

/-- A window that SET_PORT takes lies in the ranges of Table 3-1. -/
theorem namedWindow_ok {base length dirAccess : Byte} {w : Window} (h : namedWindow base length dirAccess = some w) :
    w.base ≤ 47 ∧ 1 ≤ w.length ∧ w.length ≤ 16 := by
  unfold namedWindow at h
  split at h
  · cases h
  · next ranges =>
    obtain ⟨a, -, rfl⟩ := Option.map_eq_some_iff.mp h
    dsimp only
    omega

theorem State.setPort_keepsRanges (p : PortNum) (target privileges base length dirAccess : Byte) (mask : Word) (s : State) :
    s.KeepsRanges (s.setPort p target privileges base length dirAccess mask) := by
  unfold State.setPort
  split
  · next w _ _ _ hw _ =>
    obtain ⟨low, short, long⟩ := namedWindow_ok hw
    exact (s.keepsRanges_refl.modPort _ _ fun ok => ⟨low, ⟨short, long⟩, ok.fault, ok.payload⟩).emptied p _ _
  · exact .answered p _ _ _ 0

theorem State.resetPort_keepsRanges (t : PortNum) (s : State) : s.KeepsRanges (s.resetPort t) := by
  have port := s.keepsRanges_refl.modPort t (fun q => { q with response := Response.initial, fault := .clear })
    fun ok => ⟨ok.base, ok.length, (by intro _ _ h; cases h), Nat.zero_le _⟩
  exact (port.setSnapshot t none).trans (State.KeepsRanges.of_eq rfl rfl)

theorem State.portReset_keepsRanges (p : PortNum) (target : Byte) (s : State) :
    s.KeepsRanges (s.portReset p target) := by
  unfold State.portReset
  split
  · exact .answered p _ _ _ 0
  · split
    · exact s.resetPort_keepsRanges _
    · exact (s.resetPort_keepsRanges _).emptied p _ _

/-! ## Channel commands -/

theorem State.storeConfig_channelWork (k : ChanNum) (c : ChanConfig) (s : State) : s.ChannelWork (s.storeConfig k c) := by
  unfold State.storeConfig
  split
  · exact (State.channelWork_modChan s k _).trans (State.settlePair_channelWork _ k)
  · exact (State.channelWork_modChan s k _).trans (State.settlePair_channelWork _ k)
  · exact ((State.channelWork_modChan s k _).trans (State.settlePair_channelWork _ k)).trans (State.arm_channelWork _ k _)
  · exact (State.channelWork_modChan s k _).trans (State.settlePair_channelWork _ k)

theorem State.enable_channelWork (k : ChanNum) (s : State) : s.ChannelWork (s.enable k) := by
  unfold State.enable
  split
  · exact (State.channelWork_modChan s k _).trans (State.arm_channelWork _ k _)
  · exact State.channelWork_modChan s k _

theorem State.disable_channelWork (k : ChanNum) (s : State) : s.ChannelWork (s.disable k) := by
  unfold State.disable
  split
  · exact State.ChannelWork.refl s
  · exact State.ChannelWork.refl s
  · exact State.channelWork_modChan s k _
  · exact State.channelWork_modChan s k _
  · exact State.cutPulse_channelWork _ s k
  · exact State.cutPulse_channelWork _ s k

theorem State.setChannel_keepsRanges (p : PortNum) (channel : Byte) (raw : RawConfig) (s : State) :
    s.KeepsRanges (s.setChannel p channel raw) := by
  unfold State.setChannel
  split
  · exact .answered p _ _ _ 0
  · split
    · exact .answered p _ _ _ 0
    · split
      · exact (State.KeepsRanges.of_channelWork (s.storeConfig_channelWork _ _)).answer p _ _ [_] fun _ => by simp
      · exact .answered p _ _ _ 0

theorem State.enableChannel_keepsRanges (p : PortNum) (channel : Byte) (s : State) :
    s.KeepsRanges (s.enableChannel p channel) := by
  unfold State.enableChannel
  split
  · exact .answered p _ _ _ 0
  · split
    · exact .answered p _ _ _ 0
    · exact (State.KeepsRanges.of_channelWork (s.enable_channelWork _)).answer p _ _ [_] fun _ => by simp
    · exact .answered p _ _ _ 1

theorem State.disableChannel_keepsRanges (p : PortNum) (channel : Byte) (s : State) :
    s.KeepsRanges (s.disableChannel p channel) := by
  unfold State.disableChannel
  split
  · exact .answered p _ _ _ 0
  · exact (State.KeepsRanges.of_channelWork (s.disable_channelWork _)).answer p _ _ [_] fun _ => by simp

/-! ## Jobs and batches -/

theorem State.setJob_keepsRanges (p : PortNum) (slot : Byte) (order : BitVec 24) (size quota : Word) (s : State) :
    s.KeepsRanges (s.setJob p slot order size quota) := by
  unfold State.setJob
  split
  · exact .answered p _ _ _ 0
  · split
    · exact .answered p _ _ _ 0
    · split
      · exact .answered p _ _ _ 0
      · exact .answered p _ _ _ 14

theorem State.setBatchSize_keepsRanges (p : PortNum) (slot : Byte) (size : Word) (s : State) :
    s.KeepsRanges (s.setBatchSize p slot size) := by
  unfold State.setBatchSize
  split
  · exact .answered p _ _ _ 0
  · split
    · exact .answered p _ _ _ 0
    · exact .answered p _ _ _ 0

theorem State.switchJob_keepsRanges (p : PortNum) (slot : Byte) (s : State) : s.KeepsRanges (s.switchJob p slot) := by
  unfold State.switchJob
  split
  · exact .answered p _ _ _ 0
  · split
    · exact .answered p _ _ _ 2
    · exact .answered p _ _ _ 0

theorem State.forceClose_keepsRanges (p : PortNum) (s : State) : s.KeepsRanges (s.forceClose p) := by
  unfold State.forceClose
  dsimp only
  split
  · exact .answered p _ _ _ 0
  · split
    · exact (State.KeepsRanges.of_batchWork (s.placeBatchEnd_batchWork.trans
        (State.closeBatch_batchWork _ _ _ _))).answer p _ _ (bytes16 _) fun _ => by simp
    · exact .answered p _ _ _ 0

theorem State.pop_keepsRanges (p : PortNum) (s : State) : s.KeepsRanges (s.pop p) := by
  unfold State.pop
  split
  · exact .answered p _ _ _ 0
  · exact .answered p _ _ _ 25

/-! ## The commands whole -/

section

variable (p : PortNum) (s : State)

theorem execUnknownCmd_keepsRanges (code : Byte) : Completes (execUnknownCmd p code s) s.KeepsRanges :=
  transact_keepsRanges p _ (fun _ => .answered p _ _ _ 0) s

theorem execShort_keepsRanges (code : Byte) : Completes (execShort p code s) s.KeepsRanges :=
  transact_keepsRanges p _ (fun _ => .answered p _ _ _ 0) s

theorem execReadPhase_keepsRanges : Completes (execReadPhase p s) s.KeepsRanges :=
  transact_keepsRanges p _ (fun _ => .answered p _ _ _ 11) s

theorem execCapture_keepsRanges : Completes (execCapture p s) s.KeepsRanges :=
  transact_keepsRanges p _ (fun s => (s.keepsRanges_refl.setSnapshot p _).emptied p _ _) s

theorem execReadSnapshot_keepsRanges : Completes (execReadSnapshot p s) s.KeepsRanges := by
  refine transact_keepsRanges p _ (fun s => ?_) s
  split
  · exact .answered p _ _ _ 0
  · exact .answered p _ _ _ 120 (Snapshot.bytes_length _)

theorem execPurge_keepsRanges : Completes (execPurge p s) s.KeepsRanges :=
  transact_privileged_keepsRanges p _ _ _ (State.purge_keepsRanges p) s

theorem execRejectRange_keepsRanges (a b : Byte) : Completes (execRejectRange p a b s) s.KeepsRanges :=
  transact_privileged_keepsRanges p _ _ _ (State.rejectRange_keepsRanges p _ _) s

theorem execResync_keepsRanges : Completes (execResync p s) s.KeepsRanges :=
  transact_privileged_keepsRanges p _ _ _ (fun _ => .answered p _ _ _ 0) s

theorem execSetLine_keepsRanges (l kc : Byte) (counts : Word) (t : Byte) :
    Completes (execSetLine p l kc counts t s) s.KeepsRanges :=
  transact_privileged_keepsRanges p _ _ _ (State.setLine_keepsRanges p _ _ _ _) s

theorem execReadLine_keepsRanges : Completes (execReadLine p s) s.KeepsRanges :=
  transact_keepsRanges p _ (fun _ => .answered p _ _ _ 6) s

theorem execReadRec_keepsRanges (index : Byte) : Completes (execReadRec p index s) s.KeepsRanges :=
  transact_keepsRanges p _ (fun s => s.readReached_keepsRanges p _ _ fun _ => Port.reachIndex_shaped _ _ _ _ _ _) s

theorem execReadRecSer_keepsRanges (serial : Word) : Completes (execReadRecSer p serial s) s.KeepsRanges :=
  transact_keepsRanges p _ (fun s => s.readReached_keepsRanges p _ _ fun _ => Port.reachSerial_shaped _ _ _ _ _ _) s

theorem execReadWindow_keepsRanges : Completes (execReadWindow p s) s.KeepsRanges :=
  transact_keepsRanges p _ (State.readWindow_keepsRanges p) s

theorem execWriteRec_keepsRanges (index : Byte) (entries : List RawEntry) :
    Completes (execWriteRec p index entries s) s.KeepsRanges :=
  transact_keepsRanges p _
    (fun s => s.writeOrShort_keepsRanges p _ _ entries fun _ => Port.reachIndex_shaped _ _ _ _ _ _) s

theorem execWriteRecSer_keepsRanges (serial : Word) (entries : List RawEntry) :
    Completes (execWriteRecSer p serial entries s) s.KeepsRanges :=
  transact_keepsRanges p _
    (fun s => s.writeOrShort_keepsRanges p _ _ entries fun _ => Port.reachSerial_shaped _ _ _ _ _ _) s

theorem execSetPort_keepsRanges (target privileges base length dirAccess : Byte) (mask : Word) :
    Completes (execSetPort p target privileges base length dirAccess mask s) s.KeepsRanges :=
  transact_privileged_keepsRanges p _ _ _ (State.setPort_keepsRanges p _ _ _ _ _ _) s

theorem execReadPort_keepsRanges (target : Byte) : Completes (execReadPort p target s) s.KeepsRanges := by
  refine transact_keepsRanges p _ (fun s => ?_) s
  split
  · exact .answered p _ _ _ 0
  · exact .answered p _ _ _ 8

theorem execReadFault_keepsRanges (target : Byte) : Completes (execReadFault p target s) s.KeepsRanges := by
  refine transact_keepsRanges p _ (fun s => ?_) s
  split
  · exact .answered p _ _ _ 0
  · exact .answered p _ _ _ 12 (FaultState.bytes_length _ _)

theorem execClearFault_keepsRanges : Completes (execClearFault p s) s.KeepsRanges :=
  transact_keepsRanges p _ (fun s => (s.keepsRanges_refl.modPort p _
    fun ok => ⟨ok.base, ok.length, (by intro _ _ h; cases h), ok.payload⟩).emptied p _ _) s

theorem execPortReset_keepsRanges (target : Byte) : Completes (execPortReset p target s) s.KeepsRanges :=
  transact_privileged_keepsRanges p _ _ _ (State.portReset_keepsRanges p target) s

theorem execSetChannel_keepsRanges (channel : Byte) (raw : RawConfig) :
    Completes (execSetChannel p channel raw s) s.KeepsRanges :=
  transact_privileged_keepsRanges p _ _ _ (State.setChannel_keepsRanges p _ _) s

theorem execEnableChannel_keepsRanges (channel : Byte) : Completes (execEnableChannel p channel s) s.KeepsRanges :=
  transact_privileged_keepsRanges p _ _ _ (State.enableChannel_keepsRanges p _) s

theorem execDisableChannel_keepsRanges (channel : Byte) : Completes (execDisableChannel p channel s) s.KeepsRanges :=
  transact_privileged_keepsRanges p _ _ _ (State.disableChannel_keepsRanges p _) s

theorem execReadChannel_keepsRanges (channel : Byte) : Completes (execReadChannel p channel s) s.KeepsRanges := by
  refine transact_keepsRanges p _ (fun s => ?_) s
  split
  · exact .answered p _ _ _ 0
  · refine State.KeepsRanges.trans ?_ (.of_channelWork (State.channelWork_chose _))
    exact .answered p _ _ _ 81 (Channel.bytes_length _ _ _ _)

theorem execSetJob_keepsRanges (slot : Byte) (order : BitVec 24) (size quota : Word) :
    Completes (execSetJob p slot order size quota s) s.KeepsRanges :=
  transact_privileged_keepsRanges p _ _ _ (State.setJob_keepsRanges p _ _ _ _) s

theorem execSetBatchSize_keepsRanges (slot : Byte) (size : Word) :
    Completes (execSetBatchSize p slot size s) s.KeepsRanges :=
  transact_privileged_keepsRanges p _ _ _ (State.setBatchSize_keepsRanges p _ _) s

theorem execSwitchJob_keepsRanges (slot : Byte) : Completes (execSwitchJob p slot s) s.KeepsRanges :=
  transact_privileged_keepsRanges p _ _ _ (State.switchJob_keepsRanges p _) s

theorem execReadJob_keepsRanges (slot : Byte) : Completes (execReadJob p slot s) s.KeepsRanges := by
  refine transact_keepsRanges p _ (fun s => ?_) s
  split
  · exact .answered p _ _ _ 0
  · exact .answered p _ _ _ 14

theorem execReadOpen_keepsRanges : Completes (execReadOpen p s) s.KeepsRanges :=
  transact_keepsRanges p _ (fun _ => .answered p _ _ _ 22) s

theorem execCloseBatch_keepsRanges : Completes (execCloseBatch p s) s.KeepsRanges :=
  transact_privileged_keepsRanges p _ _ _ (State.forceClose_keepsRanges p) s

theorem execReadBatch_keepsRanges (entry : Byte) : Completes (execReadBatch p entry s) s.KeepsRanges := by
  refine transact_keepsRanges p _ (fun s => ?_) s
  split
  · exact .answered p _ _ _ 0
  · exact .answered p _ _ _ 25

theorem execPopBatch_keepsRanges : Completes (execPopBatch p s) s.KeepsRanges :=
  transact_privileged_keepsRanges p _ _ _ (State.pop_keepsRanges p) s

theorem execSetEvents_keepsRanges (events : Word) : Completes (execSetEvents p events s) s.KeepsRanges := by
  refine transact_keepsRanges p _ (fun s => ?_) s
  split
  · exact .answered p _ _ _ 0
  · exact .answered p _ _ _ 6

theorem execReadEvents_keepsRanges : Completes (execReadEvents p s) s.KeepsRanges :=
  transact_keepsRanges p _ (fun _ => .answered p _ _ _ 5) s

theorem execClearEvents_keepsRanges (events : Word) : Completes (execClearEvents p events s) s.KeepsRanges := by
  refine transact_keepsRanges p _ (fun s => ?_) s
  split
  · exact .answered p _ _ _ 0
  · exact .answered p _ _ _ 4

end

theorem execReferenceCycleLatch_keepsRanges (address : BitVec 7) (s : State) :
    Completes (execReferenceCycleLatch address s) s.KeepsRanges := by
  refine completes_next ?_
  split
  · exact s.keepsRanges_refl
  · split
    · exact .of_eq rfl rfl
    · exact (s.keepsRanges_refl.modPort _ (fun q => { q with reference := s.phu.cycle })
        fun ok => ⟨ok.base, ok.length, ok.fault, ok.payload⟩).trans (.of_eq rfl rfl)

theorem execReadTransaction_keepsRanges (address : BitVec 7) (clocked : Nat) (s : State) :
    Completes (execReadTransaction address clocked s) s.KeepsRanges := by
  refine completes_next ?_
  split
  · exact s.keepsRanges_refl
  · split <;> exact .of_eq rfl rfl

/-- A transaction on the bus keeps the cycle number and the ranges. -/
theorem exec_onBus_keepsRanges (s : State) (c : Instr) (h : c.onBus = true) : Completes (exec c s) s.KeepsRanges := by
  cases c with
  | forwardCount jumped feed splice => exact absurd h Bool.false_ne_true
  | backwardCount jumped => exact absurd h Bool.false_ne_true
  | indexEdge feed splice => exact absurd h Bool.false_ne_true
  | speedWindowEnd => exact absurd h Bool.false_ne_true
  | powerOnReset pins => exact absurd h Bool.false_ne_true
  | rst pins => exact absurd h Bool.false_ne_true
  | initEnd => exact absurd h Bool.false_ne_true
  | timerExpiry k => exact absurd h Bool.false_ne_true
  | referenceCycleLatch address => exact execReferenceCycleLatch_keepsRanges address s
  | readTransaction address clocked => exact execReadTransaction_keepsRanges address clocked s
  | unknownCmd p code => exact execUnknownCmd_keepsRanges p s code
  | short p code => exact execShort_keepsRanges p s code
  | readPhase p => exact execReadPhase_keepsRanges p s
  | capture p => exact execCapture_keepsRanges p s
  | readSnapshot p => exact execReadSnapshot_keepsRanges p s
  | purge p => exact execPurge_keepsRanges p s
  | rejectRange p a b => exact execRejectRange_keepsRanges p s a b
  | resync p => exact execResync_keepsRanges p s
  | setLine p l kc counts t => exact execSetLine_keepsRanges p s l kc counts t
  | readLine p => exact execReadLine_keepsRanges p s
  | readRec p index => exact execReadRec_keepsRanges p s index
  | readRecSer p serial => exact execReadRecSer_keepsRanges p s serial
  | readWindow p => exact execReadWindow_keepsRanges p s
  | writeRec p index entries => exact execWriteRec_keepsRanges p s index entries
  | writeRecSer p serial entries => exact execWriteRecSer_keepsRanges p s serial entries
  | setPort p target privileges base length dirAccess mask =>
    exact execSetPort_keepsRanges p s target privileges base length dirAccess mask
  | readPort p target => exact execReadPort_keepsRanges p s target
  | readFault p target => exact execReadFault_keepsRanges p s target
  | clearFault p => exact execClearFault_keepsRanges p s
  | portReset p target => exact execPortReset_keepsRanges p s target
  | setChannel p channel config => exact execSetChannel_keepsRanges p s channel config
  | enableChannel p channel => exact execEnableChannel_keepsRanges p s channel
  | disableChannel p channel => exact execDisableChannel_keepsRanges p s channel
  | readChannel p channel => exact execReadChannel_keepsRanges p s channel
  | setJob p slot order size quota => exact execSetJob_keepsRanges p s slot order size quota
  | setBatchSize p slot size => exact execSetBatchSize_keepsRanges p s slot size
  | switchJob p slot => exact execSwitchJob_keepsRanges p s slot
  | readJob p slot => exact execReadJob_keepsRanges p s slot
  | readOpen p => exact execReadOpen_keepsRanges p s
  | closeBatch p => exact execCloseBatch_keepsRanges p s
  | readBatch p entry => exact execReadBatch_keepsRanges p s entry
  | popBatch p => exact execPopBatch_keepsRanges p s
  | setEvents p events => exact execSetEvents_keepsRanges p s events
  | readEvents p => exact execReadEvents_keepsRanges p s
  | clearEvents p events => exact execClearEvents_keepsRanges p s events

end Sys2Proof.Machine

/-! PROOFS. Which rows move the cycle number, and what every row keeps of the ranges: OnlyAdvancesMoveTheCycle (O19) and
StepKeepsRanges (O56). -/

namespace Sys2Proof.Machine

/-! ## The Phase Unit after an index edge -/

@[simp] theorem State.crossForward_phu (s : State) (feed splice : Bool) :
    (s.crossForward feed splice).phu = { s.phu with
      cycle := if s.phu.debt = 0 then s.phu.cycle + 1 else s.phu.cycle, debt := s.phu.debt - 1 } := by
  unfold State.crossForward
  split
  · next h => simp [h]
  · simp

@[simp] theorem State.crossForward_ports (s : State) (feed splice : Bool) : (s.crossForward feed splice).ports = s.ports := by
  unfold State.crossForward
  split
  · exact s.advance_ports feed splice
  · rw [State.repay_frame]

theorem State.edgeWhole_phu (s : State) (crosses beyond feed splice : Bool) :
    (s.edgeWhole crosses beyond feed splice).phu = { s.phu with
      mc := 0, missing := 0
      cycle := if crosses = true ∧ s.phu.debt = 0 then s.phu.cycle + 1 else s.phu.cycle
      debt := if crosses then s.phu.debt - 1 else s.phu.debt } := by
  cases crosses <;> simp [State.edgeWhole]

theorem State.edgeWhole_ports (s : State) (crosses beyond feed splice : Bool) :
    (s.edgeWhole crosses beyond feed splice).ports = s.ports := by
  cases crosses <;> simp [State.edgeWhole]

/-- What a forward index edge while SYNCED makes of the Phase Unit (R5, R6, R8). -/
theorem State.correct_phu (s : State) (feed splice : Bool) :
    (s.correct feed splice).phu = { s.phu with
      mc := 0, missing := 0
      cycle := if s.phu.distance < 0 ∧ s.phu.debt = 0 then s.phu.cycle + 1 else s.phu.cycle
      debt := if s.phu.distance < 0 then s.phu.debt - 1 else s.phu.debt } := by
  rw [(s.correct_points feed splice).1.phu, State.edgeWhole_phu]
  simp

theorem State.correct_ports (s : State) (feed splice : Bool) : (s.correct feed splice).ports = s.ports := by
  rw [(s.correct_points feed splice).1.ports, State.edgeWhole_ports]

/-- An early edge without debt, once whole: an advance, and LOST beyond the tolerance. -/
theorem State.edgeWhole_advance {s : State} (beyond feed splice : Bool) (debt : s.phu.debt = 0) :
    s.edgeWhole true beyond feed splice = State.modPhu (fun u => { u with missing := 0 })
      (State.slipIf beyond ((s.modPhu fun u => { u with mc := 0 }).countMissing.advance feed splice)) := by
  simp [State.edgeWhole, State.crossForward, debt]

/-- An early edge without debt leaves a record of the new cycle's serial on the line, and one advance more is counted. -/
theorem State.correct_created (s : State) (feed splice : Bool) (early : s.phu.distance < 0) (debt : s.phu.debt = 0) :
    (s.correct feed splice).ttb.advances = s.ttb.advances + 1 ∧
      ((s.correct feed splice).ttb.lookup (s.phu.cycle + 1)).any (fun r => r.place == .inLine) = true := by
  obtain ⟨work, records, -⟩ := s.correct_points feed splice
  have created := State.advance_created (s.modPhu fun u => { u with mc := 0 }).countMissing feed splice
  have lost := State.slipIf_keepsRecords ((s.modPhu fun u => { u with mc := 0 }).countMissing.advance feed splice)
    (decide ((s.phu.t : Int) < |s.phu.distance|))
  rw [decide_eq_true early, State.edgeWhole_advance _ feed splice debt] at work records
  refine ⟨?_, ?_⟩
  · rw [work.table]
    show (State.slipIf _ _).ttb.advances = _
    rw [State.slipIf_ttb]
    split
    · exact (State.advance_advances _ feed splice).trans (by simp)
    · exact (State.advance_advances _ feed splice).trans (by simp)
  · rw [State.countMissing_phu] at created
    exact (records.any_place (s.phu.cycle + 1) .inLine).trans ((lost.any_place (s.phu.cycle + 1) .inLine).trans created)

/-! ## What moves the cycle number (R9) -/

/-- From `s` to `t` the line has advanced once: SYNCED and without debt, the cycle number and the count of advances have
gone up by one, and a record of the new cycle's serial stands on the line. -/
structure State.AdvancesOnce (s t : State) : Prop where
  synced : s.phu.phase = .synced
  debt : s.phu.debt = 0
  cycle : t.phu.cycle = s.phu.cycle + 1
  advances : t.ttb.advances = s.ttb.advances + 1
  created : (t.ttb.lookup t.phu.cycle).any (fun r => r.place == .inLine) = true

theorem PhaseState.synced_of_ne {p : PhaseState} (h : p ≠ .unsynced) : p = .synced := by
  cases p
  · exact absurd rfl h
  · rfl

/-- A forward count keeps the cycle number, or is an advance. -/
theorem State.countForward_cycle (s : State) (jumped feed splice : Bool) :
    (s.countForward jumped feed splice).phu.cycle = s.phu.cycle ∨ s.AdvancesOnce (s.countForward jumped feed splice) := by
  by_cases inside : s.phu.mc + 1 < s.phu.p
  · left
    rw [State.countForward_inside jumped feed splice inside, (State.runPoints_channelWork _ _).phu]
    rfl
  · by_cases phase : s.phu.phase = .unsynced
    · left
      rw [State.countForward_wrap jumped feed splice inside phase]
      rfl
    · have synced := PhaseState.synced_of_ne phase
      by_cases debt : s.phu.debt = 0
      · right
        rw [State.countForward_advance jumped feed splice inside synced debt]
        obtain ⟨phu, advances, -, -⟩ := (s.counted .forward jumped 0).advanceCount_phu feed splice
        exact ⟨synced, debt, by rw [phu]; rfl, advances, by
          rw [phu]; exact (s.counted .forward jumped 0).advanceCount_created feed splice⟩
      · left
        rw [State.countForward_repay jumped feed splice inside synced debt, State.repay_phu, State.countMissing_phu]
        rfl

theorem State.countBackward_cycle (s : State) (jumped : Bool) : (s.countBackward jumped).phu.cycle = s.phu.cycle := by
  by_cases h : s.phu.mc = 0
  · by_cases phase : s.phu.phase = .unsynced
    · rw [State.countBackward_wrap jumped h phase]
      rfl
    · rw [State.countBackward_crossing jumped h (PhaseState.synced_of_ne phase), State.crossBackward_phu]
      rfl
  · rw [State.countBackward_inside jumped h, (State.runOffPoints_channelWork _ _).phu]
    rfl

@[simp] theorem State.synchronise_phu (s : State) :
    s.synchronise.phu = { s.phu with mc := 0, phase := .synced, missing := 0 } := by
  unfold State.synchronise
  dsimp only
  split <;> rfl

theorem State.synchronise_ports (s : State) : s.synchronise.ports = s.ports := by
  unfold State.synchronise
  dsimp only
  split <;> rfl

/-- An index edge keeps the cycle number, or its crossing is an advance. -/
theorem State.index_cycle (s : State) (feed splice : Bool) :
    (s.index feed splice).phu.cycle = s.phu.cycle ∨ s.AdvancesOnce (s.index feed splice) := by
  by_cases forward : s.phu.lastDir = some .forward
  · by_cases phase : s.phu.phase = .unsynced
    · left
      rw [State.index_unsynced feed splice forward phase, State.synchronise_phu]
    · have synced := PhaseState.synced_of_ne phase
      rw [State.index_synced feed splice forward synced]
      by_cases crossing : s.phu.distance < 0 ∧ s.phu.debt = 0
      · right
        obtain ⟨advances, created⟩ := s.correct_created feed splice crossing.1 crossing.2
        have cycle : (s.correct feed splice).phu.cycle = s.phu.cycle + 1 := by simp [State.correct_phu, crossing]
        exact ⟨synced, crossing.2, cycle, advances, by rw [cycle]; exact created⟩
      · left
        simp [State.correct_phu, crossing]
  · left
    rw [State.index_ignored feed splice forward]

theorem State.expire_channelWork (s : State) (k : ChanNum) : s.ChannelWork (s.expire k) := by
  unfold State.expire
  split
  · split
    · exact State.ChannelWork.refl s
    · split
      · exact State.endPulse_channelWork s k _ _
      · exact State.channelWork_modChan s k _
  · split
    · exact State.ChannelWork.refl s
    · exact State.channelWork_modChan s k _
  · exact State.ChannelWork.refl s

/-- A row that is neither a motion of the line nor a reset leaves the cycle number. -/
theorem exec_cycle_still (s : State) (c : Instr) (still : c.movesLine = false) (reset : c.isReset = false) :
    Completes (exec c s) fun t => t.phu.cycle = s.phu.cycle := by
  by_cases bus : c.onBus = true
  · obtain ⟨t, ht, kept⟩ := exec_onBus_keepsRanges s c bus
    exact ⟨t, ht, kept.cycle⟩
  · cases c with
    | forwardCount jumped feed splice => exact absurd still Bool.noConfusion
    | indexEdge feed splice => exact absurd still Bool.noConfusion
    | powerOnReset pins => exact absurd reset Bool.noConfusion
    | rst pins => exact absurd reset Bool.noConfusion
    | backwardCount jumped => exact completes_next (s.countBackward_cycle jumped)
    | speedWindowEnd => exact completes_next rfl
    | initEnd =>
      refine completes_next ?_
      split <;> rfl
    | timerExpiry k => exact completes_next (congrArg Phu.cycle (s.expire_channelWork k).phu)
    | _ => exact absurd rfl bus

/-- Settles O19: a forward count or an index edge keeps the cycle number or is an advance, and every other row but a reset
keeps it. -/
theorem onlyAdvancesMoveTheCycle : Obligations.OnlyAdvancesMoveTheCycle := by
  intro s c
  have moving : ∀ t : State, c.movesLine = true → c.isReset = false →
      (t.phu.cycle = s.phu.cycle ∨ s.AdvancesOnce t) →
      (c.isReset = true → t.phu.cycle = 0) ∧ (c.isReset = false → t.phu.cycle ≠ s.phu.cycle →
        c.movesLine = true ∧ s.phu.phase = .synced ∧ s.phu.debt = 0 ∧ t.phu.cycle = s.phu.cycle + 1 ∧
        t.ttb.advances = s.ttb.advances + 1 ∧ (t.ttb.lookup t.phu.cycle).any (fun r => r.place == .inLine) = true) := by
    intro t moves reset h
    refine ⟨fun r => absurd (reset.symm.trans r) Bool.noConfusion, fun _ moved => ?_⟩
    rcases h with same | once
    · exact absurd same moved
    · exact ⟨moves, once.synced, once.debt, once.cycle, once.advances, once.created⟩
  by_cases reset : c.isReset = true
  · cases c with
    | powerOnReset pins => exact completes_next ⟨fun _ => rfl, fun h => absurd h Bool.noConfusion⟩
    | rst pins => exact completes_next ⟨fun _ => rfl, fun h => absurd h Bool.noConfusion⟩
    | _ => exact absurd reset Bool.noConfusion
  · rw [Bool.not_eq_true] at reset
    by_cases moves : c.movesLine = true
    · cases c with
      | forwardCount jumped feed splice =>
        exact completes_next (moving _ rfl rfl (s.countForward_cycle jumped feed splice))
      | indexEdge feed splice => exact completes_next (moving _ rfl rfl (s.index_cycle feed splice))
      | _ => exact absurd moves Bool.noConfusion
    · obtain ⟨t, ht, still⟩ := exec_cycle_still s c (by simpa using moves) reset
      exact ⟨t, ht, fun r => absurd (reset.symm.trans r) Bool.noConfusion, fun _ moved => absurd still moved⟩

/-! ## The ranges of the Phase Unit under motion (Table 1-1) -/

/-- A count noted, with mc at a place within the cycle. -/
theorem Phu.Ok.counted {s : State} (ok : s.phu.Ok) (d : Dir) (jumped : Bool) {mc : Nat} (h : mc < s.phu.p) :
    (s.counted d jumped mc).phu.Ok :=
  ⟨ok.counts, h, ok.tolerance, ok.missing, ok.debt, ok.speed, ok.unsynced⟩

theorem Phu.Ok.pos {u : Phu} (ok : u.Ok) : 0 < u.p := by have := ok.counts; omega

theorem State.countForward_ok (s : State) (jumped feed splice : Bool) (ok : s.phu.Ok) :
    (s.countForward jumped feed splice).phu.Ok := by
  by_cases inside : s.phu.mc + 1 < s.phu.p
  · rw [State.countForward_inside jumped feed splice inside, (State.runPoints_channelWork _ _).phu]
    exact ok.counted .forward jumped inside
  · have zero := ok.counted .forward jumped ok.pos
    by_cases phase : s.phu.phase = .unsynced
    · rw [State.countForward_wrap jumped feed splice inside phase]
      exact zero
    · have synced := PhaseState.synced_of_ne phase
      by_cases debt : s.phu.debt = 0
      · rw [State.countForward_advance jumped feed splice inside synced debt, (State.advanceCount_phu _ _ _).1]
        exact { zero with missing := Nat.min_le_right _ _ }
      · rw [State.countForward_repay jumped feed splice inside synced debt, State.repay_phu, State.countMissing_phu]
        exact { zero with
          missing := Nat.min_le_right _ _, debt := (Nat.sub_le _ 1).trans zero.debt
          unsynced := fun h => absurd h phase }

theorem State.countForward_ports (s : State) (jumped feed splice : Bool) :
    (s.countForward jumped feed splice).ports = s.ports := by
  by_cases inside : s.phu.mc + 1 < s.phu.p
  · rw [State.countForward_inside jumped feed splice inside, (State.runPoints_channelWork _ _).ports]
    rfl
  · by_cases phase : s.phu.phase = .unsynced
    · rw [State.countForward_wrap jumped feed splice inside phase]
      rfl
    · have synced := PhaseState.synced_of_ne phase
      by_cases debt : s.phu.debt = 0
      · rw [State.countForward_advance jumped feed splice inside synced debt, (State.advanceCount_phu _ _ _).2.2.2]
        rfl
      · rw [State.countForward_repay jumped feed splice inside synced debt, State.repay_frame]
        exact State.countMissing_ports _

theorem State.countBackward_ok (s : State) (jumped : Bool) (ok : s.phu.Ok) : (s.countBackward jumped).phu.Ok := by
  by_cases h : s.phu.mc = 0
  · have top := ok.counted .backward jumped (Nat.sub_lt ok.pos Nat.one_pos)
    by_cases phase : s.phu.phase = .unsynced
    · rw [State.countBackward_wrap jumped h phase]
      exact top
    · rw [State.countBackward_crossing jumped h (PhaseState.synced_of_ne phase), State.crossBackward_phu]
      refine { top with debt := ?_, unsynced := fun h => absurd h phase }
      dsimp only
      split <;> omega
  · rw [State.countBackward_inside jumped h, (State.runOffPoints_channelWork _ _).phu]
    exact ok.counted .backward jumped (lt_of_le_of_lt (Nat.sub_le _ 1) ok.mc)

theorem State.countBackward_ports (s : State) (jumped : Bool) : (s.countBackward jumped).ports = s.ports := by
  by_cases h : s.phu.mc = 0
  · by_cases phase : s.phu.phase = .unsynced
    · rw [State.countBackward_wrap jumped h phase]
      rfl
    · rw [State.countBackward_crossing jumped h (PhaseState.synced_of_ne phase), State.crossBackward_ports]
      rfl
  · rw [State.countBackward_inside jumped h, (State.runOffPoints_channelWork _ _).ports]
    rfl

theorem State.index_ok (s : State) (feed splice : Bool) (ok : s.phu.Ok) : (s.index feed splice).phu.Ok := by
  by_cases forward : s.phu.lastDir = some .forward
  · by_cases phase : s.phu.phase = .unsynced
    · rw [State.index_unsynced feed splice forward phase, State.synchronise_phu]
      exact { ok with mc := ok.pos, missing := Nat.zero_le _, unsynced := fun h => absurd h (by simp) }
    · rw [State.index_synced feed splice forward (PhaseState.synced_of_ne phase), State.correct_phu]
      have debt := ok.debt
      refine { ok with mc := ok.pos, missing := Nat.zero_le _, debt := ?_, unsynced := fun h => absurd h phase }
      dsimp only
      split <;> omega
  · rw [State.index_ignored feed splice forward]
    exact ok

theorem State.index_ports (s : State) (feed splice : Bool) : (s.index feed splice).ports = s.ports := by
  by_cases forward : s.phu.lastDir = some .forward
  · by_cases phase : s.phu.phase = .unsynced
    · rw [State.index_unsynced feed splice forward phase, State.synchronise_ports]
    · rw [State.index_synced feed splice forward (PhaseState.synced_of_ne phase), State.correct_ports]
  · rw [State.index_ignored feed splice forward]

/-! ## Sound values at reset -/

theorem Phu.reset_ok (pins : ResetPins) : (Phu.reset pins).Ok where
  counts := by simp [Phu.reset]
  mc := Nat.zero_lt_succ _
  tolerance := by simp [Phu.reset]
  missing := Nat.zero_le _
  debt := Nat.zero_le _
  speed := by simp [Phu.reset]
  unsynced := fun _ => rfl

/-- Both starting conditions of a port lie in the ranges of Table 3-1. -/
theorem Port.reset_ok (pins : ResetPins) (n : Nat) (waiting : List Instr) (p : PortNum) :
    ((State.resetWith pins n waiting).ports.get p).Ok := by
  have clear : ∀ w : Window, w.base ≤ 47 → 1 ≤ w.length ∧ w.length ≤ 16 → ∀ x : Privileges,
      Port.Ok { Port.reset with privileges := x, window := w } := fun w base length x =>
    ⟨base, length, fun _ _ h => absurd h (by simp [Port.reset]), Nat.zero_le _⟩
  by_cases h : p = 0
  · subst h
    rw [State.resetWith, Bank.get_put_same]
    exact clear ⟨0, 16, .up, .read⟩ (by decide) (by decide) ⟨true, true⟩
  · rw [State.resetWith, Bank.get_put_ne _ _ h, Bank.get_fill]
    exact clear ⟨0, 1, .up, .none⟩ (by decide) (by decide) ⟨false, false⟩

/-! ## Every row keeps the ranges -/

theorem clampSpeed_range (v : Int) : -32768 ≤ clampSpeed v ∧ clampSpeed v ≤ 32767 := by
  unfold clampSpeed
  omega

theorem exec_keeps_ranges (s : State) (c : Instr) (phase : s.phu.Ok) (ports : ∀ p, (s.ports.get p).Ok) :
    Completes (exec c s) fun t => t.phu.Ok ∧ ∀ p, (t.ports.get p).Ok := by
  by_cases bus : c.onBus = true
  · obtain ⟨t, ht, kept⟩ := exec_onBus_keepsRanges s c bus
    exact ⟨t, ht, kept.phase phase, kept.ports ports⟩
  · cases c with
    | forwardCount jumped feed splice =>
      exact completes_next ⟨s.countForward_ok jumped feed splice phase, by rwa [State.countForward_ports]⟩
    | backwardCount jumped => exact completes_next ⟨s.countBackward_ok jumped phase, by rwa [State.countBackward_ports]⟩
    | indexEdge feed splice => exact completes_next ⟨s.index_ok feed splice phase, by rwa [State.index_ports]⟩
    | speedWindowEnd => exact completes_next ⟨{ phase with speed := clampSpeed_range _ }, ports⟩
    | powerOnReset pins => exact completes_next ⟨Phu.reset_ok pins, Port.reset_ok pins s.frees s.pending⟩
    | rst pins => exact completes_next ⟨Phu.reset_ok pins, Port.reset_ok pins s.frees s.pending⟩
    | initEnd =>
      refine completes_next ?_
      split <;> exact ⟨phase, ports⟩
    | timerExpiry k =>
      have kept := State.KeepsRanges.of_channelWork (s.expire_channelWork k)
      exact completes_next ⟨kept.phase phase, kept.ports ports⟩
    | _ => exact absurd rfl bus

/-- Settles O56: the command at the front keeps the ranges, and so does a CLK period, which touches neither unit. -/
theorem stepKeepsRanges : Obligations.StepKeepsRanges := by
  intro s phase ports
  cases h : s.pending with
  | nil => exact ⟨s.tick, by simp [step, h], phase, ports⟩
  | cons c rest =>
    have front : step s = exec c { s with pending := rest } := by simp [step, h]
    rw [front]
    exact exec_keeps_ranges { s with pending := rest } c phase ports

end Sys2Proof.Machine

/-! PROOFS. Resets, the CLK period and the speed window: IdleStepCountsClk (O3), ResetIsSound (O4),
ResetClearsPhaseAndTable (O5) and SpeedSumsFourWindows (O18). -/

namespace Sys2Proof.Machine

/-! ## One CLK period (R10, R119, R170) -/

theorem allChans_eq_finRange : allChans = List.finRange 16 := by decide

/-- The expiries due in a CLK period, in channel order. -/
def State.dueTimers (s : State) : List Instr :=
  (allChans.filter fun k => (s.chans.get k).state.expires).map .timerExpiry

/-- The end of INIT due in a CLK period. -/
def State.dueInit (s : State) : List Instr :=
  if s.bti = .init ∧ initLength ≤ s.clock.init + 1 then [.initEnd] else []

/-- The window end due in a CLK period. -/
def State.dueWindow (s : State) : List Instr :=
  if Config.clkPerWindow ≤ s.clock.window + 1 then [.speedWindowEnd] else []

/-- A window end and the expiries due with it, in the order of a free choice (log 18). -/
def orderDue (windowFirst : Bool) (window timers : List Instr) : List Instr :=
  match window, timers with
  | [], ts => ts
  | ws, [] => ws
  | ws, ts => if windowFirst then ws ++ ts else ts ++ ws

theorem orderDue_cases (windowFirst : Bool) (window timers : List Instr) :
    orderDue windowFirst window timers = window ++ timers ∨ orderDue windowFirst window timers = timers ++ window := by
  unfold orderDue
  split
  · exact .inl rfl
  · exact .inl (List.append_nil _).symm
  · cases windowFirst
    · exact .inr rfl
    · exact .inl rfl

theorem State.dueRows_eq (s : State) :
    s.dueRows = s.dueInit ++ orderDue (Config.windowFirst s.frees) s.dueWindow s.dueTimers := by
  have init : (if s.bti = .init && initLength ≤ s.clock.init + 1 then [Instr.initEnd] else []) = s.dueInit := by
    simp [State.dueInit]
  unfold State.dueRows
  rw [init]
  rfl

/-- The expiries due, by the timers that have one period left or none. -/
theorem State.dueTimers_eq (s : State) :
    s.dueTimers = ((List.finRange 16).filter fun j =>
      decide (∃ x ∈ (s.chans.get j).state.timer, x.left ≤ 1)).map .timerExpiry := by
  rw [State.dueTimers, allChans_eq_finRange]
  congr 2
  funext j
  unfold ChanState.expires
  cases (s.chans.get j).state.timer <;> simp

/-- A CLK period takes one period off a running timer and changes nothing else of a channel. -/
theorem Channel.tick_eq (ch : Channel) :
    ch.tick = { ch with state := match ch.state with
      | .on l pulse => .on l { pulse with timer := pulse.timer.map fun x => ⟨x.duration, x.left - 1⟩ }
      | .gap l pulse => .gap l { pulse with timer := pulse.timer.map fun x => ⟨x.duration, x.left - 1⟩ }
      | other => other } := by
  unfold Channel.tick
  cases ch.state <;> rfl

/-- Settles O3: a step on an empty queue is `State.tick`, whose due rows come in one of two orders. -/
theorem idleStepCountsClk : Obligations.IdleStepCountsClk := by
  rintro s k init window timers idle rfl rfl rfl
  have tick : step s = .next s.tick := by simp [step, idle]
  have queue : s.tick.pending = s.dueRows := by simp [State.tick, idle]
  rw [tick]
  refine completes_next ⟨rfl, ?_, ?_, ?_⟩
  · exact (Bank.get_map Channel.tick s.chans k).trans ((s.chans.get k).tick_eq.trans (by cases (s.chans.get k).state <;> rfl))
  · rcases Nat.lt_or_ge (s.clock.window + 1) 20000 with h | h
    · simp [State.tick, Config.clkPerWindow, h, Nat.not_le.mpr h]
    · simp [State.tick, Config.clkPerWindow, h, Nat.not_lt.mpr h]
  · rw [queue, State.dueRows_eq, ← State.dueTimers_eq]
    rcases orderDue_cases (Config.windowFirst s.frees) s.dueWindow s.dueTimers with h | h
    · left
      rw [h, ← List.append_assoc]
      rfl
    · right
      rw [h, ← List.append_assoc]
      rfl

/-! ## Resets (R17, R45, R71, R108, R145, R158) -/

@[simp] theorem Ttb.reset_lookup (x : Word) : Ttb.reset.lookup x = none := by
  simp [Ttb.lookup, Ttb.reset]

/-- Settles O5: both resets leave the values of `State.resetWith`. -/
theorem resetClearsPhaseAndTable : Obligations.ResetClearsPhaseAndTable := by
  have values (s : State) (pins : ResetPins) : ∀ t : State, t = s.resetPart pins →
      t.phu.phase = .unsynced ∧ t.phu.mc = 0 ∧ t.phu.cycle = 0 ∧ t.phu.debt = 0 ∧ t.phu.missing = 0 ∧
      t.phu.speed = 0 ∧ t.phu.sum = 0 ∧ t.phu.windows = ⟨0, 0, 0, 0⟩ ∧ t.phu.p = 4096 ∧ t.phu.t = 4 ∧
      (∀ p, t.phu.snapshots.get p = none) ∧ t.phu.lastDir = none ∧ t.straps = pins ∧
      t.phu.quad = ⟨pins.encA, pins.encB⟩ ∧ (∀ p, (t.events.get p).request = 0) ∧
      (∀ k, t.ttb.slots.get k = none) ∧ (∀ x, t.ttb.lookup x = none) ∧ t.ttb.tracking = .ready ∧ t.ttb.l = 24 ∧
      t.ttb.kc = 20 ∧ t.ttb.advances = 0 ∧ t.ttb.births = 0 ∧ t.ttb.feed = false ∧ t.ttb.splice = false ∧
      t.clock = ⟨0, 0⟩ ∧ t.sda = [] ∧ t.frees = s.frees := by
    rintro t rfl
    exact ⟨rfl, rfl, rfl, rfl, rfl, rfl, rfl, rfl, rfl, rfl, fun p => Bank.get_fill _ p, rfl, rfl, rfl,
      fun p => congrArg EventSets.request (Bank.get_fill _ p), fun k => Bank.get_fill _ k, Ttb.reset_lookup, rfl, rfl, rfl,
      rfl, rfl, rfl, rfl, rfl, rfl, rfl⟩
  rintro s c pins (rfl | rfl)
  · exact completes_next (values s pins _ rfl)
  · exact completes_next (values s pins _ rfl)

theorem Ttb.reset_slots (k : Fin 64) (r : Record) : Ttb.reset.slots.get k ≠ some r := by
  simp [Ttb.reset]

theorem Ttb.reset_placed (cycle : Word) : Ttb.reset.Placed cycle where
  line := by decide
  counting := by decide
  slot := fun k r h => absurd h (Ttb.reset_slots k r)
  position := fun k r h => absurd h (Ttb.reset_slots k r)
  filled := fun n _ => by simp [Ttb.reset_lookup, show Ttb.reset.advances = 0 from rfl]
  identity := fun k r h => absurd h (Ttb.reset_slots k r)

theorem Ttb.reset_marked : Ttb.reset.Marked where
  fault := fun k r _ h => absurd h (Ttb.reset_slots k r)
  splice := fun k r h => absurd h (Ttb.reset_slots k r)
  diverted := fun k r h => absurd h (Ttb.reset_slots k r)
  lost := fun k r _ h => absurd h (Ttb.reset_slots k r)

theorem Ttb.reset_counted (cycle : Word) : Ttb.reset.Counted cycle where
  onLine := fun k r h => absurd h (Ttb.reset_slots k r)
  departed := fun k r h => absurd h (Ttb.reset_slots k r)
  batch := fun k r h => absurd h (Ttb.reset_slots k r)

theorem ChanConfig.reset_ok : ChanConfig.reset.Ok 24 4096 where
  station := by decide
  onAngle := by decide
  leadLimit := by decide
  latencyOn := by decide
  latencyOff := by decide
  minSpeed := by decide
  mode := by decide

theorem Channel.reset_ok : Channel.reset.Ok 24 4096 where
  config := ChanConfig.reset_ok
  pending := fun _ h => absurd h (by simp [Channel.reset])
  leads := fun _ h => absurd h (by simp [Channel.reset, ChanState.latch])
  overruns := by decide

/-- After a reset every channel is the same: DISABLED, with nothing held. -/
theorem State.resetWith_channelsOk (pins : ResetPins) (n : Nat) (waiting : List Instr) :
    (State.resetWith pins n waiting).ChannelsOk := by
  have chan : ∀ k, (State.resetWith pins n waiting).chans.get k = Channel.reset := fun k => Bank.get_fill _ k
  refine ⟨fun k => ?_, fun k => ?_, fun k => ?_, fun k => ?_, fun k => ?_, fun k => ?_, fun k => ?_⟩
  · rw [chan]; exact Channel.reset_ok
  · rw [chan]; exact fun h => absurd h (by decide)
  · rw [chan]; exact fun h => absurd h (by decide)
  · rw [chan]; exact fun _ => ⟨rfl, rfl⟩
  · rw [chan, chan]; exact fun _ => by decide
  · rw [chan]; exact fun _ => by decide
  · rw [chan]; exact fun _ => by decide

theorem JobSlot.reset_ok : JobSlot.reset.Ok where
  size := by decide
  next := fun _ h => absurd h (by simp [JobSlot.reset])
  quota := by decide
  closed := by decide

theorem OpenBatch.reset_ok : Bfu.reset.openBatch.Ok where
  size := by decide
  good := by decide
  diverted := by decide
  passed := by decide
  sample := by decide
  pending := by decide
  oversize := by decide
  contaminated := by decide
  first := by decide
  last := by decide
  inStack := by decide

theorem Bfu.reset_ok : Bfu.reset.Ok where
  jobs := fun j => by
    by_cases h : j = 0
    · subst h
      rw [Bfu.reset, Bank.get_put_same]
      exact { JobSlot.reset_ok with }
    · rw [Bfu.reset, Bank.get_put_ne _ _ h, Bank.get_fill]
      exact JobSlot.reset_ok
  cutJob := by decide
  openBatch := OpenBatch.reset_ok
  length := by decide
  numbers := fun _ _ h => absurd h (by simp [Bfu.reset])
  present := fun _ h => absurd h (by simp [Bfu.reset])
  qfull := by decide

theorem State.resetWith_ok (pins : ResetPins) (n : Nat) (waiting : List Instr) :
    (State.resetWith pins n waiting).Ok where
  phase := Phu.reset_ok pins
  placed := Ttb.reset_placed 0
  marked := Ttb.reset_marked
  counted := Ttb.reset_counted 0
  ports := Port.reset_ok pins n waiting
  channels := State.resetWith_channelsOk pins n waiting
  batches := Bfu.reset_ok

/-- Settles O4: `State.reset` is the reset with one reading of the pins. -/
theorem resetIsSound : Obligations.ResetIsSound :=
  fun pins n waiting => ⟨State.resetWith_ok pins n waiting, State.resetWith_ok _ 0 []⟩

/-! ## Speed (R10) -/

/-- Settles O18: S is the clamp of the sum of the windows after the shift. -/
theorem speedSumsFourWindows : Obligations.SpeedSumsFourWindows := by
  rintro s a b c rfl rfl rfl
  refine completes_next ⟨rfl, ?_⟩
  simp only [Phu.endWindow, clampSpeed]
  omega

end Sys2Proof.Machine

/-! PROOFS. Counts, the missing-index counter and index edges: CountsInsideTheCycle (O13), MissingIndexCounter (O15),
FirstIndexSynchronises (O16) and IndexEdgeMeasuresDistance (O17). -/

namespace Sys2Proof.Machine

/-! ## Quadrature (R1) -/

/-- R1's order of the four states, the count each change gives, and the change of both channels that gives none. -/
theorem Quad.step_order (now before opposite : Quad) (forward : Quad → Quad)
    (order : forward = fun x => match x.a, x.b with
      | false, false => ⟨true, false⟩
      | true, false => ⟨true, true⟩
      | true, true => ⟨false, true⟩
      | false, true => ⟨false, false⟩)
    (both : opposite = ⟨!now.a, !now.b⟩) :
    now.step .forward false = forward now ∧ now.step .forward true = forward opposite ∧
      (before = now.step .backward false ↔ forward before = now) ∧
      (before = now.step .backward true ↔ forward before = opposite) ∧
      Quad.decode now (forward now) = some .forward ∧ Quad.decode (forward now) now = some .backward ∧
      Quad.decode now opposite = none ∧ Quad.decode now now = none := by
  have next : forward = Quad.next := by
    rw [order]
    funext ⟨a, b⟩
    cases a <;> cases b <;> rfl
  obtain ⟨a, b⟩ := now
  obtain ⟨c, d⟩ := before
  subst both next
  revert a b c d
  decide

/-! ## Counts while UNSYNCED (R2) -/

/-- While UNSYNCED a forward count moves mc around the cycle and does nothing else of note. -/
theorem State.countForward_unsynced {s : State} (jumped feed splice : Bool) (low : s.phu.mc < s.phu.p)
    (phase : s.phu.phase = .unsynced) :
    s.countForward jumped feed splice = s.counted .forward jumped ((s.phu.mc + 1) % s.phu.p) := by
  by_cases inside : s.phu.mc + 1 < s.phu.p
  · rw [State.countForward_inside jumped feed splice inside, 
      (s.counted .forward jumped _).runPoints_hidden _ (Phu.presented_unsynced phase), Nat.mod_eq_of_lt inside]
  · have wrap : s.phu.mc + 1 = s.phu.p := by omega
    rw [State.countForward_wrap jumped feed splice inside phase, wrap, Nat.mod_self]

theorem State.countBackward_unsynced {s : State} (jumped : Bool) (low : s.phu.mc < s.phu.p)
    (phase : s.phu.phase = .unsynced) :
    s.countBackward jumped = s.counted .backward jumped ((s.phu.mc + s.phu.p - 1) % s.phu.p) := by
  by_cases zero : s.phu.mc = 0
  · rw [State.countBackward_wrap jumped zero phase, zero, Nat.zero_add, Nat.mod_eq_of_lt (by omega)]
  · have moved : s.phu.mc + s.phu.p - 1 = s.phu.mc - 1 + s.phu.p := by omega
    rw [State.countBackward_inside jumped zero, 
      (s.counted .backward jumped _).runOffPoints_hidden _ (Phu.presented_unsynced phase), moved, Nat.add_mod_right, Nat.mod_eq_of_lt (by omega)]

/-- Settles O13: a count inside the cycle is `State.counted` with the points of the new count, a wrap while UNSYNCED is
`State.counted` alone, and a crossing without debt is `State.advanceCount`. -/
theorem countsInsideTheCycle : Obligations.CountsInsideTheCycle := by
  intro s jumped feed splice now before opposite forward low order both
  refine ⟨Quad.step_order now before opposite forward order both, fun inside still => ?_, fun above still => ?_,
    fun phase => ?_, fun synced debt => ⟨fun inside => ?_, fun above => ?_, fun top => ?_⟩⟩
  · rw [exec_forwardCount_eq, State.countForward_inside jumped feed splice inside, 
      (s.counted .forward jumped _).runPoints_none _ still]
    exact completes_next rfl
  · rw [exec_backwardCount_eq, State.countBackward_inside jumped (Nat.ne_of_gt above), 
      (s.counted .backward jumped _).runOffPoints_none _ still]
    rfl
  · rw [exec_forwardCount_eq, exec_backwardCount_eq, State.countForward_unsynced jumped feed splice low phase,
      State.countBackward_unsynced jumped low phase]
    exact ⟨rfl, rfl⟩
  · have presented : (s.counted .forward jumped (s.phu.mc + 1)).phu.presented = true :=
      (Phu.presented_eq_true _).mpr ⟨synced, debt⟩
    obtain ⟨ks, nodup, mem, eq⟩ := State.runPoints_presented _ ⟨s.phu.cycle, s.phu.mc + 1⟩ presented
    rw [exec_forwardCount_eq, State.countForward_inside jumped feed splice inside, eq]
    exact ⟨ks, nodup, mem, rfl⟩
  · have presented : (s.counted .backward jumped (s.phu.mc - 1)).phu.presented = true :=
      (Phu.presented_eq_true _).mpr ⟨synced, debt⟩
    obtain ⟨ks, nodup, mem, eq⟩ := State.runOffPoints_presented _ ⟨s.phu.cycle, s.phu.mc - 1⟩ presented
    rw [exec_backwardCount_eq, State.countBackward_inside jumped (Nat.ne_of_gt above), eq]
    exact ⟨ks, nodup, mem, rfl⟩
  · obtain ⟨early, late, nodup, mem, armed, eq⟩ :=
      (s.counted .forward jumped 0).advanceCount_eq feed splice ⟨s.phu.cycle + 1, 0⟩ rfl
    rw [exec_forwardCount_eq, State.countForward_advance jumped feed splice (by omega) synced debt, eq]
    exact ⟨early, late, nodup, mem, armed, rfl⟩

/-! ## The missing-index counter (R6) -/

theorem State.requested_repay (s : State) (q : PortNum) (e : Event) : s.repay.requested q e = s.requested q e :=
  State.requested_congr (by rw [State.repay_frame]) q e

theorem State.repay_enable (s : State) (q : PortNum) : (s.repay.events.get q).enable = (s.events.get q).enable := by
  rw [State.repay_frame]

/-- A forward crossing adds one to the counter, up to 2, raises SLIP on the step from 1 to 2, and leaves the tracking. -/
theorem State.countForward_missing {s : State} (jumped feed splice : Bool) (q : PortNum) (h : ¬ s.phu.mc + 1 < s.phu.p)
    (phase : s.phu.phase = .synced) :
    (s.countForward jumped feed splice).phu.missing = min (s.phu.missing + 1) 2 ∧
      (s.countForward jumped feed splice).ttb.tracking = s.ttb.tracking ∧
      (s.countForward jumped feed splice).requested q .slip = (s.requested q .slip || s.phu.missing == 1) := by
  by_cases debt : s.phu.debt = 0
  · rw [State.countForward_advance jumped feed splice h phase debt]
    obtain ⟨phu, -, tracking, -⟩ := (s.counted .forward jumped 0).advanceCount_phu feed splice
    exact ⟨by rw [phu]; rfl, tracking, (s.counted .forward jumped 0).advanceCount_slip feed splice q⟩
  · rw [State.countForward_repay jumped feed splice h phase debt]
    refine ⟨?_, ?_, ?_⟩
    · rw [State.repay_phu, State.countMissing_phu]
      rfl
    · rw [State.repay_frame, State.countMissing_ttb]
      rfl
    · rw [State.requested_repay, State.requested_countMissing]
      rfl

theorem State.crossForward_raises (s : State) (feed splice : Bool) :
    State.Raises batchEvents s (s.crossForward feed splice) := by
  unfold State.crossForward
  split
  · exact State.advance_raises s feed splice
  · exact State.Raises.of_events (by rw [State.repay_frame])

/-- An early edge takes the counter from 1 to 2 on its way to 0, which SLIP marks. -/
theorem State.correct_slip (s : State) (feed splice : Bool) (q : PortNum) (early : s.phu.distance < 0)
    (missing : s.phu.missing = 1) : (s.correct feed splice).requested q .slip = true := by
  have counted : (s.modPhu fun u => { u with mc := 0 }).countMissing.requested q .slip = true := by
    rw [State.requested_countMissing, State.modPhu_phu, missing]
    exact Bool.or_true _
  have crossed := (State.crossForward_raises (s.modPhu fun u => { u with mc := 0 }).countMissing feed splice).keeps q _ counted
  have whole : (s.edgeWhole true (decide ((s.phu.t : Int) < |s.phu.distance|)) feed splice).requested q .slip = true :=
    (State.requested_slipIf _ _ q .slip).trans (by rw [if_pos rfl, crossed]; rfl)
  rw [State.correct_eq]
  simp only [early, decide_true]
  split
  · exact (State.runPoints_raises _ _).keeps q _ whole
  · exact whole

/-- Settles O15: a forward crossing counts by `State.countMissing`, a backward one and a late edge do not. -/
theorem missingIndexCounter : Obligations.MissingIndexCounter := by
  intro s jumped feed splice q e synced few low
  refine ⟨s.countMissing_frame, s.requested_countMissing q e, s.countMissing_enable q, fun top => ?_, fun zero => ?_,
    fun forward => ?_⟩
  · exact completes_next (State.countForward_missing jumped feed splice q (by omega) synced)
  · rw [exec_backwardCount_eq, State.countBackward_crossing jumped zero synced]
    exact completes_next ⟨by rw [State.crossBackward_phu]; rfl, State.crossBackward_slip _ q⟩
  · rw [exec_indexEdge_eq, State.index_synced feed splice forward synced]
    refine completes_next ⟨by rw [State.correct_phu], fun half missing => ?_⟩
    have early : s.phu.distance < 0 := by
      unfold Phu.distance
      split <;> omega
    exact s.correct_slip feed splice q early missing

/-! ## The end of a spell of inhibition (R91) -/

/-- The bound of a target, as the statements write it. -/
theorem eq_notBefore {bounded : Word → Option Word → Word}
    (h : bounded = fun ct bound => match bound with
      | none => ct
      | some b => if (b - ct).toNat ≤ 2 then b else ct) : bounded = notBefore := by
  rw [h]
  funext ct bound
  cases bound <;> rfl

/-- What the end of inhibition makes of a channel, its target written out (log 30). -/
theorem Channel.resume_eq (ch : Channel) (repaid : Bool) (p : Nat) (speed : Int) (x : Count) :
    ch.resume repaid p speed x = match ch.state with
      | .waiting => { ch with
          due := none, dropped := none, cut := none
          state := .armed (ch.config.latchFor p speed (notBefore
            (notBefore (ch.config.latch p speed x).ct (ch.cut.map (· + 1))) (if repaid then ch.dropped else none))) }
      | _ => { ch with dropped := none, cut := none } := by
  unfold Channel.resume Channel.targetAfterSpell
  cases ch.state <;> cases repaid <;> rfl

/-! ## Index edges (R3 to R5) -/

/-- The first forward index edge touches the phase, the channels and the events alone. -/
theorem State.synchronise_frame (s : State) :
    s.synchronise = { s with
      phu := { s.phu with mc := 0, phase := .synced, missing := 0 }
      chans := s.synchronise.chans, events := s.synchronise.events } := by
  unfold State.synchronise
  dsimp only
  split <;> rfl

theorem State.synchronise_events (s : State) : s.synchronise.events = s.events.map (EventSets.add .sync) := by
  unfold State.synchronise
  dsimp only
  split <;> rfl

theorem State.synchronise_ends {s : State} (debt : s.phu.debt = 0) :
    s.synchronise = State.endInhibition false
      ((s.modPhu fun u => { u with mc := 0, phase := .synced, missing := 0 }).raise .sync) := by
  simp [State.synchronise, debt]

theorem State.synchronise_owing {s : State} (debt : s.phu.debt ≠ 0) :
    s.synchronise = (s.modPhu fun u => { u with mc := 0, phase := .synced, missing := 0 }).raise .sync := by
  simp [State.synchronise, debt]

theorem State.synchronise_get {s : State} (debt : s.phu.debt = 0) (k : ChanNum) :
    s.synchronise.chans.get k = (s.chans.get k).resume false s.phu.p s.phu.speed ⟨s.phu.cycle, 0⟩ := by
  rw [State.synchronise_ends debt, State.endInhibition_get]
  rfl

/-- Settles O16: an edge without a forward direction is ignored, the first forward one is `State.synchronise`. -/
theorem firstIndexSynchronises : Obligations.FirstIndexSynchronises := by
  rintro s feed splice q e k ch x bounded resumed rfl rfl hbounded hresumed
  refine ⟨fun other => ?_, fun forward unsynced => ?_⟩
  · rw [exec_indexEdge_eq, State.index_ignored feed splice other]
  · rw [exec_indexEdge_eq, State.index_unsynced feed splice forward unsynced]
    have raised : s.synchronise.requested q e = (s.requested q e || e == .sync) :=
      (State.requested_congr (t := s.synchronise) (s := s.raise .sync) s.synchronise_events q e).trans
        (State.requested_raise s .sync e q)
    refine completes_next ⟨s.synchronise_frame, raised, ?_, fun debt => ?_, fun debt => ?_⟩
    · rw [State.synchronise_events, Bank.get_map, EventSets.add_enable]
    · rw [State.synchronise_get debt, Channel.resume_eq, hresumed, eq_notBefore hbounded]
      cases (s.chans.get k).state <;> rfl
    · rw [State.synchronise_owing debt]
      rfl

end Sys2Proof.Machine

/-! PROOFS. A forward index edge while SYNCED: IndexEdgeMeasuresDistance (O17). -/

namespace Sys2Proof.Machine

/-! ## The edge whole, case by case (R5, R8) -/

/-- The table that an edge leaves where no advance changes it: every blank on the line rejected beyond the tolerance. -/
def State.edgeTable (s : State) (beyond : Bool) : Ttb := if beyond then s.enterLost.ttb else s.ttb

/-- A late edge changes mc, the counter and, beyond the tolerance, the table and the events. -/
theorem State.edgeWhole_late_frame (s : State) (beyond feed splice : Bool) :
    s.edgeWhole false beyond feed splice = { s with
      phu := { s.phu with mc := 0, missing := 0 }, ttb := s.edgeTable beyond
      events := (s.edgeWhole false beyond feed splice).events } := by
  cases beyond <;> rfl

theorem State.edgeWhole_late_requested (s : State) (beyond feed splice : Bool) (q : PortNum) (e : Event) :
    (s.edgeWhole false beyond feed splice).requested q e
      = (s.requested q e || (beyond && (e == .slip || e == .lost))) :=
  State.requested_slipIf (s.modPhu fun u => { u with mc := 0 }) beyond q e

/-- An early edge with debt, once whole, is a repaying forward crossing. -/
theorem State.edgeWhole_repay {s : State} (beyond feed splice : Bool) (debt : s.phu.debt ≠ 0) :
    s.edgeWhole true beyond feed splice = State.modPhu (fun u => { u with missing := 0 })
      (State.slipIf beyond (s.modPhu fun u => { u with mc := 0 }).countMissing.repay) := by
  simp [State.edgeWhole, State.crossForward, debt]

/-- An early edge with debt takes one step off it and touches the phase, the channels, the events and, beyond the
tolerance, the table. -/
theorem State.edgeWhole_repay_frame {s : State} (beyond feed splice : Bool) (debt : s.phu.debt ≠ 0) :
    s.edgeWhole true beyond feed splice = { s with
      phu := { s.phu with mc := 0, debt := s.phu.debt - 1, missing := 0 }, ttb := s.edgeTable beyond
      chans := (s.edgeWhole true beyond feed splice).chans, events := (s.edgeWhole true beyond feed splice).events } := by
  rw [State.edgeWhole_repay beyond feed splice debt, State.repay_frame, State.countMissing_frame]
  cases beyond <;> rfl

theorem State.edgeWhole_repay_requested {s : State} (beyond feed splice : Bool) (debt : s.phu.debt ≠ 0) (q : PortNum)
    (e : Event) :
    (s.edgeWhole true beyond feed splice).requested q e = (s.requested q e || (e == .slip && s.phu.missing == 1) ||
      (beyond && (e == .slip || e == .lost))) := by
  rw [State.edgeWhole_repay beyond feed splice debt]
  refine (State.requested_slipIf _ beyond q e).trans ?_
  rw [State.requested_repay, State.requested_countMissing]
  rfl

theorem State.edgeWhole_repay_chans {s : State} (beyond feed splice : Bool) (debt : s.phu.debt ≠ 0) :
    (s.edgeWhole true beyond feed splice).chans = (s.modPhu fun u => { u with mc := 0 }).countMissing.repay.chans := by
  rw [State.edgeWhole_repay beyond feed splice debt]
  exact State.slipIf_chans _ _

theorem State.edgeWhole_enable_repay {s : State} (beyond feed splice : Bool) (debt : s.phu.debt ≠ 0) (q : PortNum) :
    ((s.edgeWhole true beyond feed splice).events.get q).enable = (s.events.get q).enable := by
  rw [State.edgeWhole_repay beyond feed splice debt]
  exact (State.slipIf_enable _ beyond q).trans ((State.repay_enable _ q).trans (State.countMissing_enable _ q))

/-- The requests of an edge that is no advance: SLIP by the counter, then SLIP and LOST beyond the tolerance, gathered by
event. -/
theorem edge_requests (held slip lost beyond missing : Bool) :
    (held || (slip && missing) || (beyond && (slip || lost)))
      = (held || (lost && beyond) || (slip && (beyond || missing))) := by
  revert held slip lost beyond missing
  decide

/-! ## Beyond the tolerance, and within it (R5, R37) -/

/-- The state of an edge just before the tolerance is tested. -/
def State.edgeCrossed (crosses feed splice : Bool) (s : State) : State :=
  if crosses then (s.modPhu fun u => { u with mc := 0 }).countMissing.crossForward feed splice
  else s.modPhu fun u => { u with mc := 0 }

theorem State.edgeWhole_eq (s : State) (crosses beyond feed splice : Bool) :
    s.edgeWhole crosses beyond feed splice
      = State.modPhu (fun u => { u with missing := 0 }) (State.slipIf beyond (s.edgeCrossed crosses feed splice)) := rfl

@[simp] theorem State.crossForward_tracking (s : State) (feed splice : Bool) :
    (s.crossForward feed splice).ttb.tracking = s.ttb.tracking := by
  unfold State.crossForward
  split
  · exact s.advance_tracking feed splice
  · rw [State.repay_frame]

theorem State.edgeCrossed_tracking (s : State) (crosses feed splice : Bool) :
    (s.edgeCrossed crosses feed splice).ttb.tracking = s.ttb.tracking := by
  cases crosses
  · rfl
  · exact (State.crossForward_tracking _ feed splice).trans (congrArg Ttb.tracking (State.countMissing_ttb _))

/-- Within the tolerance an edge leaves the tracking state. -/
theorem State.correct_tracking (s : State) (feed splice : Bool) (within : ¬ (s.phu.t : Int) < |s.phu.distance|) :
    (s.correct feed splice).ttb.tracking = s.ttb.tracking := by
  rw [(s.correct_points feed splice).1.table, decide_eq_false within, State.edgeWhole_eq]
  exact s.edgeCrossed_tracking _ feed splice

/-- Beyond the tolerance an edge raises SLIP and LOST, the tracking is LOST, and no blank on the line that is not VOID is
left without a reject. -/
theorem State.correct_beyond (s : State) (feed splice : Bool) (q : PortNum) (beyond : (s.phu.t : Int) < |s.phu.distance|) :
    (s.correct feed splice).requested q .slip = true ∧ (s.correct feed splice).requested q .lost = true ∧
      (s.correct feed splice).ttb.tracking = .lost ∧
      ∀ x, ∀ r ∈ (s.correct feed splice).ttb.lookup x, r.place = .inLine → r.kind ≠ .void → r.reject.isSome := by
  obtain ⟨work, records, raises⟩ := s.correct_points feed splice
  rw [decide_eq_true beyond, State.edgeWhole_eq] at work records raises
  have requested : ∀ e, (e == Event.slip || e == .lost) = true → (State.modPhu (fun u => { u with missing := 0 })
      (State.slipIf true (s.edgeCrossed (decide (s.phu.distance < 0)) feed splice))).requested q e = true := by
    intro e he
    refine (State.requested_slipIf _ true q e).trans ?_
    rw [he]
    exact Bool.or_true _
  refine ⟨raises.keeps q _ (requested .slip rfl), raises.keeps q _ (requested .lost rfl), ?_, fun x r hr line kind => ?_⟩
  · rw [work.table]
    rfl
  · obtain ⟨r₀, found, kept⟩ := records.found hr
    rw [kept.place] at line
    rw [kept.kind] at kind
    exact kept.reject (State.enterLost_rejects (s := (s.edgeCrossed _ feed splice).raise .slip) found line kind)

/-- The channels take their events at an advance by an index edge once the edge is whole, each once, in some order, and one
free choice is used (R117). -/
theorem State.correct_advance_points {s : State} (feed splice : Bool) (synced : s.phu.phase = .synced)
    (early : s.phu.distance < 0) (debt : s.phu.debt = 0) (whole : State)
    (hw : whole = s.edgeWhole true (decide ((s.phu.t : Int) < |s.phu.distance|)) feed splice) :
    ∃ ks : List ChanNum, ks.Nodup ∧
      (∀ k, k ∈ ks ↔ (s.chans.get k).atPoint s.phu.p ⟨s.phu.cycle + 1, 0⟩ = true) ∧
      s.correct feed splice
        = { ks.foldl (State.pointEvent ⟨s.phu.cycle + 1, 0⟩) whole with frees := s.frees + 1 } := by
  have phu : whole.phu = { s.phu with mc := 0, missing := 0, cycle := s.phu.cycle + 1, debt := 0 } := by
    rw [hw, State.edgeWhole_phu]
    simp [debt]
  have count : whole.phu.count = ⟨s.phu.cycle + 1, 0⟩ := by rw [phu]; rfl
  have chans : whole.chans = s.chans := by
    rw [hw, State.edgeWhole_advance _ feed splice debt]
    exact (State.slipIf_chans _ _).trans ((State.advance_chans _ feed splice).trans (State.countMissing_chans _))
  have frees : whole.frees = s.frees := by
    rw [hw, State.edgeWhole_advance _ feed splice debt]
    exact (State.slipIf_frees _ _).trans ((State.advance_frees _ feed splice).trans (State.countMissing_frees _))
  have presented : whole.phu.presented = true := (Phu.presented_eq_true _).mpr (by rw [phu]; exact ⟨synced, rfl⟩)
  obtain ⟨ks, nodup, mem, eq⟩ := whole.runPoints_presented ⟨s.phu.cycle + 1, 0⟩ presented
  rw [chans, phu] at mem
  rw [frees] at eq
  refine ⟨ks, nodup, mem, ?_⟩
  rw [State.correct_advance feed splice early debt, ← hw, ← eq]
  dsimp only
  rw [count]

/-- Settles O17: a late edge, an early one with debt and one that is an advance, each by its own frame; beyond the tolerance
and within it by `State.correct_beyond` and `State.correct_tracking`. -/
theorem indexEdgeMeasuresDistance : Obligations.IndexEdgeMeasuresDistance := by
  rintro s feed splice q e x d k ch bounded resumed synced rfl hbounded hresumed forward hd
  replace hd : d = s.phu.distance := hd
  subst hd
  rw [exec_indexEdge_eq, State.index_synced feed splice forward synced]
  have phu := s.correct_phu feed splice
  refine completes_next ⟨by rw [phu], by rw [phu], fun late => ⟨?_, ?_, ?_⟩, fun early debt => ⟨?_, ?_, ?_, ?_⟩,
    fun early debt => ⟨?_, fun owing => ?_, fun last => ?_⟩, fun still => ?_, fun beyond => ?_, fun within => ⟨?_, fun late => ?_⟩⟩
  · simp [phu, not_lt.mpr late]
  · simp [phu, not_lt.mpr late]
  · rw [State.correct_late feed splice late, State.edgeWhole_late_frame]
  · simp [phu, early, debt]
  · simp [phu, early, debt]
  · exact Option.isSome_of_any (s.correct_created feed splice early debt).2
  · obtain ⟨ks, nodup, mem, eq⟩ := State.correct_advance_points feed splice synced early debt _ rfl
    refine ⟨ks, nodup, mem, ?_⟩
    rintro crossed whole rfl rfl
    rw [eq, State.edgeWhole_advance _ feed splice debt]
    simp only [State.slipIf, decide_eq_true_eq]
    rfl
  · rw [State.correct_repay feed splice early (Nat.ne_of_gt debt), State.edgeWhole_repay_frame _ _ _ (Nat.ne_of_gt debt)]
    simp only [State.edgeTable, decide_eq_true_eq]
  · rw [State.correct_repay feed splice early (Nat.ne_of_gt debt), State.edgeWhole_repay_chans _ _ _ (Nat.ne_of_gt debt),
      State.repay_chans_owing, State.countMissing_chans]
    · rfl
    · simpa using owing
  · rw [State.correct_repay feed splice early (Nat.ne_of_gt debt), State.edgeWhole_repay_chans _ _ _ (Nat.ne_of_gt debt),
      State.repay_get_last _ (by simpa using last), State.countMissing_phu, State.countMissing_chans, hresumed,
      Channel.resume_eq, eq_notBefore hbounded]
    simp only [State.modPhu_chans]
    cases (s.chans.get k).state <;> rfl
  · by_cases early : s.phu.distance < 0
    · have debt : s.phu.debt ≠ 0 := by omega
      rw [State.correct_repay feed splice early debt]
      refine ⟨?_, State.edgeWhole_enable_repay _ feed splice debt q⟩
      rw [State.edgeWhole_repay_requested _ _ _ debt, decide_eq_true early, Bool.true_and, edge_requests]
    · rw [State.correct_late feed splice (not_lt.mp early)]
      refine ⟨?_, ?_⟩
      · rw [State.edgeWhole_late_requested, decide_eq_false early, Bool.false_and, ← edge_requests, Bool.and_false,
          Bool.or_false]
      · exact State.slipIf_enable _ _ q
  · obtain ⟨slip, lost, tracking, rejects⟩ := s.correct_beyond feed splice q beyond
    refine ⟨slip, lost, tracking, fun late => ?_, rejects x⟩
    rw [State.correct_late feed splice late, State.edgeWhole_late_frame, State.edgeTable, if_pos (decide_eq_true beyond)]
  · exact s.correct_tracking feed splice (not_lt.mpr within)
  · rw [State.correct_late feed splice late, decide_eq_false (not_lt.mpr within)]
    rfl

end Sys2Proof.Machine

/-! PROOFS. Targets and points (R12, R92, R113): TargetIsTheEarliest (O38). -/

namespace Sys2Proof.Machine

/-! ## The signed difference (R12) -/

/-- The natural number `signedDiff` works on is the difference of the two counts modulo `m`. -/
theorem signedDiff_residue {m : Nat} (hm : 0 < m) (a b : Nat) :
    (((a + m - b % m) % m : Nat) : Int) = ((a : Int) - b) % m := by
  have low : b % m ≤ a + m := (Nat.mod_lt b hm).le.trans (Nat.le_add_left m a)
  have split : (a : Int) + m - (b : Int) % m = (a - b) + m * (1 + (b : Int) / m) := by
    have := Int.mul_ediv_add_emod (b : Int) m
    linarith
  push_cast [Nat.cast_sub low]
  rw [split, Int.add_mul_emod_self_left]

/-- A signed difference is 0 or positive when the residue lies in the lower half (log 25). -/
theorem signedDiff_nonneg_iff {m : Nat} (hm : 0 < m) (a b : Nat) :
    0 ≤ signedDiff m a b ↔ 2 * (((a : Int) - b) % m) < m := by
  have residue := signedDiff_residue hm a b
  have below : (a + m - b % m) % m < m := Nat.mod_lt _ hm
  unfold signedDiff
  dsimp only
  rw [← residue]
  split <;> omega

/-- When a count has reached a point, over the integers (R113). -/
theorem Count.reached_eq (x : Count) {p : Nat} (hp : 0 < p) (point : Nat) :
    x.reached p point
      = decide (2 * (((x.cycle.toNat : Int) * p + x.mc - point) % (65536 * p)) < 65536 * p) := by
  have hm : 0 < countModulus p := Nat.mul_pos (by decide) hp
  unfold Count.reached
  rw [decide_eq_decide, signedDiff_nonneg_iff hm]
  simp [countModulus, Count.absolute]

/-! ## The latch (R109 to R113) -/

theorem ChanConfig.latchFor_onLead (c : ChanConfig) (p : Nat) (speed : Int) (y : Word) :
    (c.latchFor p speed y).onLead = leadOf speed c.latencyOn c.leadLimit := rfl

theorem ChanConfig.latch_eq (c : ChanConfig) (p : Nat) (speed : Int) (x : Count) :
    c.latch p speed x = c.latchFor p speed (x.cycle + BitVec.ofNat 16 (targetOffset p x.mc
      ((c.onAngle : Int) - leadOf speed c.latencyOn c.leadLimit))) := rfl

theorem leadOf_le (speed : Int) (latency limit : Nat) : leadOf speed latency limit ≤ limit := Nat.min_le_right _ _

/-- The on point latched for a cycle: its number times P plus the on angle less the on lead, modulo the range (R113). -/
theorem ChanConfig.latchFor_aOn (c : ChanConfig) {p : Nat} (hp : 0 < p) (speed : Int) (y : Word) :
    ((c.latchFor p speed y).aOn : Int)
      = ((y.toNat : Int) * p + ((c.onAngle : Int) - leadOf speed c.latencyOn c.leadLimit)) % (65536 * p) := by
  have modulus : ((countModulus p : Nat) : Int) = 65536 * p := by simp [countModulus]
  have pos : (65536 * p : Int) ≠ 0 := by omega
  unfold ChanConfig.latchFor
  dsimp only
  rw [modulus, Int.toNat_of_nonneg (Int.emod_nonneg _ pos)]
  push_cast
  rw [add_sub_assoc]

/-- The target lies at most two cycles on, is the earliest whose on point lies after the count, and its on point lies at most
a cycle after the count. -/
theorem targetOffset_spec {p mc : Nat} {r : Int} (hmc : mc < p) (low : -(p : Int) < r) (high : r < p) :
    targetOffset p mc r < 3 ∧ (mc : Int) < targetOffset p mc r * p + r ∧
      (targetOffset p mc r = 0 ∨ ((targetOffset p mc r : Int) - 1) * p + r ≤ mc) ∧
      (targetOffset p mc r : Int) * p + r - mc ≤ p := by
  unfold targetOffset
  split
  · refine ⟨by decide, ?_, .inl rfl, ?_⟩ <;> push_cast <;> omega
  · split
    · refine ⟨by decide, ?_, .inr ?_, ?_⟩ <;> push_cast <;> omega
    · refine ⟨by decide, ?_, .inr ?_, ?_⟩ <;> push_cast <;> omega

/-- A cycle number that has wrapped names the same points modulo the range. -/
theorem wrapped_cycle_emod (x : Word) (n p : Nat) (r : Int) :
    (((x + BitVec.ofNat 16 n).toNat : Int) * p + r) % (65536 * p) = (((x.toNat : Int) + n) * p + r) % (65536 * p) := by
  have wrap : (x + BitVec.ofNat 16 n).toNat = (x.toNat + n) % 65536 := by simp
  have split : ((x.toNat : Int) + n) * p + r
      = (((x.toNat + n) % 65536 : Nat) : Int) * p + r + 65536 * p * (((x.toNat + n) / 65536 : Nat) : Int) := by
    have parts : ((x.toNat : Int) + n)
        = (((x.toNat + n) % 65536 : Nat) : Int) + 65536 * (((x.toNat + n) / 65536 : Nat) : Int) := by
      have := Nat.mod_add_div (x.toNat + n) 65536
      exact_mod_cast this.symm
    rw [parts]
    ring
  rw [split, Int.add_mul_emod_self_left, wrap]

/-- A point ahead of the count by at most a cycle is not reached. -/
theorem emod_ahead {p : Nat} (a point ahead : Int) (hp : 0 < p) (pos : 0 < ahead) (near : ahead ≤ p)
    (at' : point = (a + ahead) % (65536 * p)) : ¬ 2 * ((a - point) % (65536 * p)) < 65536 * p := by
  have residue : (a - point) % (65536 * p) = 65536 * p - ahead := by
    rw [at', Int.sub_emod_emod, show a - (a + ahead) = (65536 * p - ahead) + 65536 * p * (-1) by ring,
      Int.add_mul_emod_self_left, Int.emod_eq_of_lt (by omega) (by omega)]
  rw [residue]
  omega

/-- Settles O38: the target of `ChanConfig.latch` by `targetOffset_spec`, its points by `ChanConfig.latchFor_aOn`. -/
theorem targetIsTheEarliest : Obligations.TargetIsTheEarliest := by
  rintro c p speed x r l y ch reached low high rfl
  have hp : 0 < p := by omega
  refine ⟨fun point => x.reached_eq hp point, ?_, ?_⟩
  · unfold Channel.atPoint
    cases ch.state with
    | armed latched => exact x.reached_eq hp latched.aOn
    | on latched pulse =>
      cases h : latched.aOff with
      | none => simp [h]
      | some off => simpa [h] using x.reached_eq hp off
    | _ => rfl
  · rintro hmc onAngle leadLimit rfl hr
    rw [ChanConfig.latch_eq, ChanConfig.latchFor_onLead] at hr
    have lead := leadOf_le speed c.latencyOn c.leadLimit
    obtain ⟨few, after, earliest, near⟩ :=
      targetOffset_spec (p := p) (mc := x.mc) (r := r) hmc (by omega) (by omega)
    have aOn : ((c.latch p speed x).aOn : Int)
        = (((x.cycle.toNat : Int) + targetOffset p x.mc r) * p + r) % (65536 * p) := by
      rw [ChanConfig.latch_eq, ChanConfig.latchFor_aOn c hp, ← hr, wrapped_cycle_emod]
    refine ⟨rfl, rfl, rfl, rfl, ?_, ⟨targetOffset p x.mc r, few⟩, ?_, after, earliest, aOn, ?_⟩
    · rw [ChanConfig.latchFor_aOn c hp, hr]
    · rw [ChanConfig.latch_eq, ← hr]
      rfl
    · refine decide_eq_false (emod_ahead _ _ (targetOffset p x.mc r * p + r - x.mc) hp (by omega) near ?_)
      rw [aOn]
      congr 1
      ring

end Sys2Proof.Machine

/-! PROOFS. The readers of the phase and of the line (R14 to R16, R44, R182): PhaseAndLineReaders (O46). -/

namespace Sys2Proof.Machine

/-! ## A command whose address stands acknowledged (R51, R172) -/

/-- With the address acknowledged on its port a command works on the state as it stands. -/
theorem transact_addressed {s : State} {p : PortNum} (body : State → State) (h : s.bti = .code p) :
    transact p body s = .next { body s with bti := .idle } := by
  simp [transact, State.openWrite, h]

/-! ## Values as bytes, most significant first (R178) -/

/-- The byte of a number's word at bit `k`. -/
theorem extractByte_ofNat {m k : Nat} (h : k + 8 ≤ m) (n : Nat) :
    (BitVec.ofNat m n).extractLsb' k 8 = BitVec.ofNat 8 (n / 2 ^ k) := by
  apply BitVec.eq_of_getLsbD_eq
  intro i hi
  have inside : i + k < m := by omega
  simp only [BitVec.getLsbD_extractLsb', BitVec.getLsbD_ofNat, Nat.testBit_div_two_pow, Nat.add_comm k i, inside,
    decide_true, Bool.true_and]

theorem natBytes16_eq (n : Nat) : natBytes16 n = [BitVec.ofNat 8 (n / 256), BitVec.ofNat 8 n] := by
  rw [natBytes16, bytes16, extractByte_ofNat (by decide), extractByte_ofNat (by decide), Nat.pow_zero, Nat.div_one]
  rfl

theorem bytes16_toNat (w : Word) : bytes16 w = natBytes16 w.toNat := by
  rw [natBytes16, BitVec.ofNat_toNat, BitVec.setWidth_eq]

theorem natBytes32_eq (n : Nat) : natBytes32 n = natBytes16 (n / 65536) ++ natBytes16 n := by
  rw [natBytes32, bytes32, natBytes16_eq, natBytes16_eq, Nat.div_div_eq_div_mul, extractByte_ofNat (by decide),
    extractByte_ofNat (by decide), extractByte_ofNat (by decide), extractByte_ofNat (by decide), Nat.pow_zero, Nat.div_one]
  rfl

/-- The phase and tracking byte: bit 0 for SYNCED, bit 1 for LOST (R182). -/
theorem phaseTrackingByte_eq (phase : PhaseState) (tracking : Tracking) :
    phaseTrackingByte phase tracking
      = BitVec.ofNat 8 ((if phase = .synced then 1 else 0) + (if tracking = .lost then 2 else 0)) := by
  cases phase <;> cases tracking <;> rfl

/-- The layout of a snapshot (Table 10-7). -/
theorem Snapshot.bytes_eq (w : Snapshot) :
    w.bytes = bytes16 w.cycle ++ natBytes16 w.mc ++ bytes16 (BitVec.ofInt 16 w.speed)
      ++ [BitVec.ofNat 8 w.debt, phaseTrackingByte w.phase w.tracking]
      ++ (List.finRange 16).flatMap fun n => (w.chans.get n).phase.code
        :: bytes16 (w.chans.get n).target ++ natBytes32 (w.chans.get n).elapsed := by
  rw [Snapshot.bytes, Bank.toList_eq, List.flatMap_map]
  rfl

/-- What CAPTURE stores of a channel, written out (R15, R106, R124). -/
theorem Channel.view_eq (ch : Channel) :
    ch.view = ⟨ch.state.phase, (ch.state.latch.map Latch.ct).getD 0,
      (ch.state.timer.map fun x : Timer => x.duration - (x.left + 19) / 20).getD 0⟩ := by
  unfold Channel.view ChanState.target ChanState.elapsed
  cases ch.state.latch <;> cases ch.state.timer <;> rfl

/-- Settles O46: each reader answers on the state as it stands, and the layouts by the bytes of their values. -/
theorem phaseAndLineReaders : Obligations.PhaseAndLineReaders := by
  rintro s p k w two marks addressed htwo hmarks
  have pair : ∀ n, two n = natBytes16 n := fun n => by rw [htwo, natBytes16_eq]
  have mark : ∀ phase tracking, marks phase tracking = phaseTrackingByte phase tracking := fun phase tracking => by
    rw [hmarks, phaseTrackingByte_eq]
  refine ⟨?_, ?_, ?_, ?_, Snapshot.bytes_length w, ?_⟩
  · show execReadPhase p s = _
    rw [mark, execReadPhase, transact_addressed _ addressed]
    rfl
  · have count : s.ttb.countRecords Record.inLine = s.ttb.holding fun r => r.place == Place.inLine :=
      Ttb.countRecords_eq s.ttb _
    have code : s.ttb.tracking.code = if s.ttb.tracking = .lost then 1 else 0 := by cases s.ttb.tracking <;> rfl
    show execReadLine p s = _
    rw [← code, ← count, execReadLine, transact_addressed _ addressed]
    rfl
  · show execReadSnapshot p s = _
    rw [execReadSnapshot, transact_addressed _ addressed]
    cases s.phu.snapshots.get p <;> rfl
  · show Completes (execCapture p s) _
    rw [execCapture, transact_addressed _ addressed]
    refine completes_next ⟨rfl, fun q other => Bank.get_put_ne _ _ other, s.snapshot, Bank.get_put_same _ _ _, rfl, rfl, rfl,
      rfl, rfl, rfl, ?_⟩
    refine (Bank.get_map Channel.view s.chans k).trans ((Channel.view_eq _).trans ?_)
    cases (s.chans.get k).state <;> rfl
  · simp only [pair, mark, Snapshot.bytes_eq, bytes16_toNat, natBytes32_eq]
    rfl

end Sys2Proof.Machine

/-! PROOFS. The start of inhibition (R90, R91, R98, R101, R102): what a cut makes of every channel, of the records and of the
request sets, and what the cuts of all pulses make of them together. -/

namespace Sys2Proof.Machine

/-! ## A cut and the other channels (R98, R102) -/

/-- A channel whose even partner applies a staged configuration, if one is held. -/
def Channel.settledBy (staged : Option ChanConfig) (ch : Channel) : Channel :=
  match staged with
  | none => ch
  | some c => ch.pairWith (c.mode == .timeLong)

/-- Applying a staged configuration settles the odd partner of an even channel, and leaves the others. -/
theorem State.applyPending_get_ne (s : State) {j k : ChanNum} (h : k ≠ j) :
    (s.applyPending j).chans.get k
      = if isEven j = true ∧ k = partnerOf j then (s.chans.get k).settledBy (s.chans.get j).pending
        else s.chans.get k := by
  unfold State.applyPending Channel.settledBy
  cases hp : (s.chans.get j).pending with
  | none => simp
  | some c =>
    simp only [State.settlePair_get, State.raise_chans, State.modChan_chans, Bank.get_modify_ne _ _ h,
      Bank.get_modify_same]
    simp [Channel.holdsLong]

theorem State.cutPulse_get_ne (after : ChanState) (s : State) {j k : ChanNum} (h : k ≠ j) :
    (s.cutPulse after j).chans.get k
      = if (s.chans.get j).state.pulse.isSome = true ∧ isEven j = true ∧ k = partnerOf j then
          (s.chans.get k).settledBy (s.chans.get j).pending
        else s.chans.get k := by
  cases hp : (s.chans.get j).state.pulse with
  | none => simp [State.cutPulse_none after s j hp]
  | some pulse =>
    unfold State.cutPulse
    simp only [hp, State.applyPending_get_ne _ h]
    simp [Bank.get_modify_ne _ _ h]

theorem Channel.settledBy_overruns (staged : Option ChanConfig) (ch : Channel) :
    (ch.settledBy staged).overruns = ch.overruns := by
  unfold Channel.settledBy Channel.pairWith
  cases staged with
  | none => rfl
  | some c => dsimp only; split <;> (try split) <;> rfl

theorem Channel.settledBy_pulse (staged : Option ChanConfig) (ch : Channel)
    (h : (ch.settledBy staged).state.pulse.isSome = true) : ch.state.pulse.isSome = true := by
  unfold Channel.settledBy Channel.pairWith at h
  cases staged with
  | none => exact h
  | some c =>
    dsimp only at h
    split at h
    · exact absurd h (by simp [ChanState.pulse])
    · split at h
      · exact absurd h (by simp [ChanState.pulse])
      · exact h

theorem State.cutPulse_overruns (after : ChanState) (s : State) (j k : ChanNum) :
    ((s.cutPulse after j).chans.get k).overruns = (s.chans.get k).overruns := by
  by_cases h : k = j
  · subst h
    cases hp : (s.chans.get k).state.pulse with
    | none => rw [State.cutPulse_none after s k hp]
    | some pulse => rw [State.cutPulse_get_self after s k pulse hp]
  · rw [State.cutPulse_get_ne after s h]
    split
    · exact Channel.settledBy_overruns _ _
    · rfl

/-- A pulse that stands after a cut stood before it, in another channel. -/
theorem State.cutPulse_pulse (s : State) (j k : ChanNum)
    (h : ((s.cutPulse .waiting j).chans.get k).state.pulse.isSome = true) :
    k ≠ j ∧ (s.chans.get k).state.pulse.isSome = true := by
  by_cases e : k = j
  · subst e
    cases hp : (s.chans.get k).state.pulse with
    | none => rw [State.cutPulse_none .waiting s k hp, hp] at h; exact absurd h (by simp)
    | some pulse => rw [State.cutPulse_get_self .waiting s k pulse hp] at h; exact absurd h (by simp [ChanState.pulse])
  · rw [State.cutPulse_get_ne .waiting s e] at h
    split at h
    · exact ⟨e, Channel.settledBy_pulse _ _ h⟩
    · exact ⟨e, h⟩

theorem State.foldl_cut_pulse (ks : List ChanNum) (k : ChanNum) : ∀ s : State,
    ((ks.foldl (State.cutPulse .waiting) s).chans.get k).state.pulse.isSome = true →
      k ∉ ks ∧ (s.chans.get k).state.pulse.isSome = true := by
  induction ks with
  | nil => exact fun s h => ⟨List.not_mem_nil, h⟩
  | cons j rest ih =>
    intro s h
    obtain ⟨out, still⟩ := ih _ h
    obtain ⟨ne, before⟩ := s.cutPulse_pulse j k still
    exact ⟨by simp [ne, out], before⟩

theorem State.foldl_cut_overruns (ks : List ChanNum) (k : ChanNum) : ∀ s : State,
    ((ks.foldl (State.cutPulse .waiting) s).chans.get k).overruns = (s.chans.get k).overruns := by
  induction ks with
  | nil => exact fun _ => rfl
  | cons j rest ih => exact fun s => (ih _).trans (s.cutPulse_overruns .waiting j k)

/-! ## What every start of inhibition leaves, from any state (R90) -/

theorem Channel.enterSpell_eq (ch : Channel) :
    ch.enterSpell = { ch with
      dropped := match ch.state with
        | .armed l => some l.ct
        | _ => ch.dropped
      cut := match ch.state with
        | .on l _ => some l.ct
        | .gap l _ => some l.ct
        | _ => ch.cut } := by
  obtain ⟨config, pending, state, due, overruns, dropped, cut⟩ := ch
  cases state <;> rfl

@[simp] theorem Channel.enterSpell_state (ch : Channel) : ch.enterSpell.state = ch.state := by rw [Channel.enterSpell_eq]

@[simp] theorem Channel.enterSpell_pending (ch : Channel) : ch.enterSpell.pending = ch.pending := by
  rw [Channel.enterSpell_eq]

@[simp] theorem Channel.enterSpell_config (ch : Channel) : ch.enterSpell.config = ch.config := by
  rw [Channel.enterSpell_eq]

@[simp] theorem Channel.enterSpell_overruns (ch : Channel) : ch.enterSpell.overruns = ch.overruns := by
  rw [Channel.enterSpell_eq]

theorem State.mem_cutOrder (s : State) (k : ChanNum) :
    k ∈ s.cutOrder ↔ (s.chans.get k).state.pulse.isSome = true := by
  simp [State.cutOrder, mem_allChans]

theorem State.nodup_cutOrder (s : State) : s.cutOrder.Nodup := nodup_inTurn _ (nodup_allChans.filter _)

theorem State.beginInhibition_get_eq (s : State) (k : ChanNum) :
    s.beginInhibition.chans.get k = (s.cutAll.chans.get k).inhibit := by
  rw [State.beginInhibition_eq, Bank.get_map]

/-- No pulse is left once every one is cut. -/
theorem State.cutAll_pulse (s : State) (k : ChanNum) : (s.cutAll.chans.get k).state.pulse = none := by
  by_contra h
  obtain ⟨out, pulse⟩ := State.foldl_cut_pulse s.cutOrder k _ (Option.isSome_iff_ne_none.mpr h)
  rw [Bank.get_map, Channel.enterSpell_state] at pulse
  exact out ((s.mem_cutOrder k).mpr pulse)

/-- The start of inhibition leaves no channel a target or a due cycle. -/
theorem State.beginInhibition_latch (s : State) (k : ChanNum) :
    (s.beginInhibition.chans.get k).state.latch = none ∧ (s.beginInhibition.chans.get k).due = none := by
  have pulse := s.cutAll_pulse k
  rw [State.beginInhibition_get_eq]
  refine ⟨?_, rfl⟩
  unfold Channel.inhibit
  cases h : (s.cutAll.chans.get k).state with
  | on l p => rw [h] at pulse; exact absurd pulse (by simp [ChanState.pulse])
  | gap l p => rw [h] at pulse; exact absurd pulse (by simp [ChanState.pulse])
  | _ => rfl

theorem State.beginInhibition_overruns (s : State) (k : ChanNum) :
    (s.beginInhibition.chans.get k).overruns = (s.chans.get k).overruns := by
  rw [State.beginInhibition_get_eq]
  refine (State.foldl_cut_overruns s.cutOrder k _).trans ?_
  rw [Bank.get_map, Channel.enterSpell_overruns]

theorem State.beginInhibition_frees (s : State) : s.beginInhibition.frees = s.frees + 1 :=
  congrArg (· + 1) (State.foldl_frees _ (State.cutPulse_frees .waiting) _ _)

/-! ## Cuts while every pair is as it should be (R102) -/

/-- The odd partner of every even channel that holds TIME_LONG is CLAIMED. -/
def State.PairsHeld (s : State) : Prop :=
  ∀ j, isEven j = true → (s.chans.get j).holdsLong = true → (s.chans.get (partnerOf j)).state = .claimed

/-- The cut of `j` releases its odd partner `k`, if that is CLAIMED: the staged configuration leaves TIME_LONG. -/
def State.releases (s : State) (j k : ChanNum) : Bool :=
  isEven j && k == partnerOf j && (s.chans.get j).state.pulse.isSome
    && (s.chans.get j).pending.any fun c => c.mode != .timeLong

/-- A pulse cut at the start of inhibition: WAITING, with the staged configuration applied. -/
def Channel.cutWaiting (ch : Channel) : Channel :=
  { ch with state := .waiting, due := none, config := ch.pending.getD ch.config, pending := none }

theorem State.cutPulse_waiting_self (s : State) (j : ChanNum) (h : (s.chans.get j).state.pulse.isSome = true) :
    (s.cutPulse .waiting j).chans.get j = (s.chans.get j).cutWaiting := by
  obtain ⟨pulse, hp⟩ := Option.isSome_iff_exists.mp h
  rw [State.cutPulse_get_self .waiting s j pulse hp]
  rfl

/-- While the pairs are held, a cut changes another channel only by releasing it. -/
theorem State.cutPulse_get_other (s : State) (held : s.PairsHeld) {j k : ChanNum} (h : k ≠ j) :
    (s.cutPulse .waiting j).chans.get k
      = if (s.chans.get k).state = .claimed ∧ s.releases j k = true then { s.chans.get k with state := .disabled }
        else s.chans.get k := by
  rw [State.cutPulse_get_ne .waiting s h]
  by_cases pair : (s.chans.get j).state.pulse.isSome = true ∧ isEven j = true ∧ k = partnerOf j
  · obtain ⟨pulse, even, rfl⟩ := pair
    rw [if_pos ⟨pulse, even, rfl⟩]
    unfold Channel.settledBy
    cases hp : (s.chans.get j).pending with
    | none => simp [State.releases, hp]
    | some c =>
      by_cases long : c.mode = .timeLong
      · have claimed := held j even (by simp [Channel.holdsLong, hp, long])
        generalize s.chans.get (partnerOf j) = ch at claimed ⊢
        obtain ⟨config, pending, state, due, overruns, dropped, cut⟩ := ch
        subst claimed
        simp [Channel.pairWith, State.releases, hp, long]
      · simp [Channel.pairWith, State.releases, hp, long, even, pulse]
  · rw [if_neg pair, if_neg]
    rintro ⟨-, released⟩
    simp only [State.releases, Bool.and_eq_true, beq_iff_eq] at released
    obtain ⟨⟨⟨even, partner⟩, pulse⟩, -⟩ := released
    exact pair ⟨pulse, even, partner⟩

/-- While the pairs are held, a cut leaves the pulses and the staged configurations of the other channels. -/
theorem State.cutPulse_other_pulse (s : State) (held : s.PairsHeld) {j i : ChanNum} (h : i ≠ j) :
    ((s.cutPulse .waiting j).chans.get i).state.pulse = (s.chans.get i).state.pulse ∧
      ((s.cutPulse .waiting j).chans.get i).pending = (s.chans.get i).pending := by
  rw [s.cutPulse_get_other held h]
  split
  · next released => simp [released.1, ChanState.pulse]
  · exact ⟨rfl, rfl⟩

theorem State.cutPulse_other_releases (s : State) (held : s.PairsHeld) {j i : ChanNum} (h : i ≠ j) (k : ChanNum) :
    (s.cutPulse .waiting j).releases i k = s.releases i k := by
  obtain ⟨pulse, staged⟩ := s.cutPulse_other_pulse held h
  simp only [State.releases, pulse, staged]

theorem partnerOf_inj {i j : ChanNum} (hi : isEven i = true) (hj : isEven j = true) (h : partnerOf i = partnerOf j) :
    i = j := by
  have := congrArg Fin.val h
  simp only [isEven, beq_iff_eq, partnerOf] at hi hj this
  exact Fin.ext (by omega)

theorem isEven_partnerOf (j : ChanNum) : isEven (partnerOf j) = false := by
  revert j; decide

/-- A cut keeps the pairs held. -/
theorem State.cutPulse_pairsHeld (s : State) (held : s.PairsHeld) (j : ChanNum) : (s.cutPulse .waiting j).PairsHeld := by
  cases pulse : (s.chans.get j).state.pulse with
  | none => rwa [State.cutPulse_none .waiting s j pulse]
  | some p =>
    have cut := s.cutPulse_waiting_self j (by simp [pulse])
    intro i even long
    by_cases own : i = j
    · subst own
      have partner : partnerOf i ≠ i := partnerOf_ne even
      have staged : ∀ c ∈ (s.chans.get i).pending, c.mode = .timeLong := by
        intro c hc
        simpa [cut, Channel.cutWaiting, Channel.holdsLong, Option.mem_def.mp hc] using long
      have before : (s.chans.get i).holdsLong = true := by
        cases hp : (s.chans.get i).pending with
        | none => simpa [cut, Channel.cutWaiting, Channel.holdsLong, hp] using long
        | some c => simp [Channel.holdsLong, hp, staged c hp]
      rw [s.cutPulse_get_other held partner, if_neg]
      · exact held i even before
      · rintro ⟨-, released⟩
        simp only [State.releases, Bool.and_eq_true, Option.any_eq_true] at released
        obtain ⟨-, c, hc, other⟩ := released
        exact absurd (staged c hc) (by simpa using other)
    · have stays : (s.cutPulse .waiting j).chans.get i = s.chans.get i := by
        rw [s.cutPulse_get_other held own, if_neg]
        rintro ⟨-, released⟩
        simp only [State.releases, Bool.and_eq_true, beq_iff_eq] at released
        rw [released.1.1.2, isEven_partnerOf] at even
        exact absurd even (by simp)
      rw [stays] at long
      have claimed := held i even long
      have apart : partnerOf i ≠ j := by
        intro e
        rw [e] at claimed
        rw [claimed] at pulse
        exact absurd pulse (by simp [ChanState.pulse])
      rw [s.cutPulse_get_other held apart, if_neg]
      · exact claimed
      · rintro ⟨-, released⟩
        simp only [State.releases, Bool.and_eq_true, beq_iff_eq] at released
        exact own (partnerOf_inj even released.1.1.1 released.1.1.2)

theorem any_congr_mem {α : Type} {f g : α → Bool} {l : List α} (h : ∀ a ∈ l, f a = g a) : l.any f = l.any g := by
  rw [Bool.eq_iff_iff, List.any_eq_true, List.any_eq_true]
  exact exists_congr fun a => and_congr_right fun ha => by rw [h a ha]

/-- What the cuts of several channels, each once, make of channel `k`: cut itself, or released, or as it was. -/
theorem State.foldl_cut_get (k : ChanNum) (ks : List ChanNum) : ∀ s : State, s.PairsHeld → ks.Nodup →
    (ks.foldl (State.cutPulse .waiting) s).chans.get k
      = if k ∈ ks ∧ (s.chans.get k).state.pulse.isSome = true then (s.chans.get k).cutWaiting
        else if (s.chans.get k).state = .claimed ∧ (ks.any fun j => s.releases j k) = true then
          { s.chans.get k with state := .disabled }
        else s.chans.get k := by
  induction ks with
  | nil => intro s _ _; simp
  | cons j rest ih =>
    intro s held nodup
    obtain ⟨out, nodup⟩ := List.nodup_cons.mp nodup
    have releases : (rest.any fun i => (s.cutPulse .waiting j).releases i k) = rest.any fun i => s.releases i k :=
      any_congr_mem fun i hi => s.cutPulse_other_releases held (ne_of_mem_of_not_mem hi out) k
    rw [List.foldl_cons, ih _ (s.cutPulse_pairsHeld held j) nodup, releases]
    by_cases own : k = j
    · subst own
      have alone : s.releases k k = false := by
        cases even : isEven k with
        | false => simp [State.releases, even]
        | true => simp [State.releases, (partnerOf_ne even).symm]
      cases pulse : (s.chans.get k).state.pulse with
      | none => simp [State.cutPulse_none .waiting s k pulse, pulse, alone]
      | some p => simp [s.cutPulse_waiting_self k (by simp [pulse]), Channel.cutWaiting, out]
    · obtain ⟨pulse, -⟩ := s.cutPulse_other_pulse held own
      rw [pulse, s.cutPulse_get_other held own]
      by_cases claimed : (s.chans.get k).state = .claimed
      · cases released : s.releases j k <;> simp [claimed, released, ChanState.pulse]
      · simp [claimed, own]

/-! ## The events and the records of the cuts (R98) -/

theorem State.cutPulse_requested (s : State) (j : ChanNum) (q : PortNum) (e : Event) :
    (s.cutPulse .waiting j).requested q e = (s.requested q e ||
      (e == .channel && (s.chans.get j).state.pulse.isSome) ||
      (e == .staged && ((s.chans.get j).state.pulse.isSome && (s.chans.get j).pending.isSome))) := by
  cases hp : (s.chans.get j).state.pulse with
  | none => simp [State.cutPulse_none .waiting s j hp]
  | some pulse =>
    have staged : (s.cutPulse .waiting j).events = (State.raiseIf (s.chans.get j).pending.isSome .staged
        ((s.modTable (Ttb.unstamp pulse)).raise .channel)).events := by
      unfold State.cutPulse
      simp only [hp, State.applyPending_events, State.raiseIf_events, State.modChan_chans, Bank.get_modify_same]
      rfl
    rw [State.requested_congr staged, State.requested_raiseIf, State.requested_raise]
    simp [Bool.and_comm, State.requested]

/-- The requests of the cuts of several channels, each once: CHANNEL for a pulse, STAGED for a staged configuration. -/
theorem State.foldl_cut_requested (q : PortNum) (e : Event) (ks : List ChanNum) : ∀ s : State, s.PairsHeld → ks.Nodup →
    (ks.foldl (State.cutPulse .waiting) s).requested q e = (s.requested q e ||
      (e == .channel && ks.any fun j => (s.chans.get j).state.pulse.isSome) ||
      (e == .staged && ks.any fun j => (s.chans.get j).state.pulse.isSome && (s.chans.get j).pending.isSome)) := by
  induction ks with
  | nil => intro s _ _; simp
  | cons j rest ih =>
    intro s held nodup
    obtain ⟨out, nodup⟩ := List.nodup_cons.mp nodup
    have other : ∀ i ∈ rest, ((s.cutPulse .waiting j).chans.get i).state.pulse = (s.chans.get i).state.pulse ∧
        ((s.cutPulse .waiting j).chans.get i).pending = (s.chans.get i).pending := fun i hi =>
      s.cutPulse_other_pulse held (ne_of_mem_of_not_mem hi out)
    have pulses : (rest.any fun i => ((s.cutPulse .waiting j).chans.get i).state.pulse.isSome)
        = rest.any fun i => (s.chans.get i).state.pulse.isSome :=
      any_congr_mem fun i hi => by rw [(other i hi).1]
    have staged : (rest.any fun i => ((s.cutPulse .waiting j).chans.get i).state.pulse.isSome
          && ((s.cutPulse .waiting j).chans.get i).pending.isSome)
        = rest.any fun i => (s.chans.get i).state.pulse.isSome && (s.chans.get i).pending.isSome :=
      any_congr_mem fun i hi => by rw [(other i hi).1, (other i hi).2]
    rw [List.foldl_cons, ih _ (s.cutPulse_pairsHeld held j) nodup, State.cutPulse_requested, List.any_cons, List.any_cons,
      pulses, staged]
    simp only [Bool.and_or_distrib_left]
    ac_rfl

/-- What the reversal of a pulse's stamp makes of a record of serial `y`: it reaches only the record the pulse was taken from
(R29, R98). -/
def Record.reversed (pulse : Option Pulse) (y : Word) (r : Record) : Record :=
  match pulse with
  | none => r
  | some pulse =>
    if pulse.gating = ⟨y, some r.birth⟩ then
      match pulse.stamp with
      | none => r
      | some st => r.unstamp st
    else r

theorem Ttb.unstamp_lookup (t : Ttb) (pulse : Pulse) (y : Word) :
    (t.unstamp pulse).lookup y = (t.lookup y).map (Record.reversed (some pulse) y) := by
  obtain ⟨⟨x, birth⟩, stamp, dots, timer⟩ := pulse
  cases stamp with
  | none =>
    cases h : t.lookup y <;> simp [Ttb.unstamp, Record.reversed, h]
  | some st =>
    have serial : ∀ r : Record, (r.unstamp st).serial = r.serial := fun r => by rw [Record.unstamp_frame]
    have written : t.unstamp ⟨⟨x, birth⟩, some st, dots, timer⟩ = t.writeHeld ⟨x, birth⟩ (Record.unstamp st) := rfl
    rw [written, Ttb.writeHeld_eq]
    dsimp only
    by_cases own : y = x
    · subst own
      cases found : t.lookup y with
      | none => simp [found]
      | some r =>
        by_cases same : birth = some r.birth
        · simp [Ttb.lookup_write _ _ _ _ serial, found, same, Record.reversed]
        · simp [found, same, Record.reversed]
    · have apart : ∀ r : Record, Record.reversed (some ⟨⟨x, birth⟩, some st, dots, timer⟩) y r = r := fun r => by
        simp [Record.reversed, Ne.symm own]
      rw [show Record.reversed (some ⟨⟨x, birth⟩, some st, dots, timer⟩) y = id from funext apart, Option.map_id]
      split
      · simp [Ttb.lookup_write _ _ _ _ serial, own]
      · rfl

theorem State.cutPulse_lookup (s : State) (j : ChanNum) (y : Word) :
    (s.cutPulse .waiting j).ttb.lookup y = (s.ttb.lookup y).map (Record.reversed (s.chans.get j).state.pulse y) := by
  cases hp : (s.chans.get j).state.pulse with
  | none =>
    rw [State.cutPulse_none .waiting s j hp]
    exact Option.map_id'.symm
  | some pulse =>
    rw [← Ttb.unstamp_lookup]
    unfold State.cutPulse
    simp only [hp, State.applyPending_ttb]
    rfl

/-- The reversals of the cuts of several channels, each once, one after the other. -/
theorem State.foldl_cut_lookup (y : Word) (ks : List ChanNum) : ∀ s : State, s.PairsHeld → ks.Nodup →
    (ks.foldl (State.cutPulse .waiting) s).ttb.lookup y = (s.ttb.lookup y).map fun r =>
      ks.foldl (fun r j => r.reversed (s.chans.get j).state.pulse y) r := by
  induction ks with
  | nil => exact fun s _ _ => Option.map_id'.symm
  | cons j rest ih =>
    intro s held nodup
    obtain ⟨out, nodup⟩ := List.nodup_cons.mp nodup
    rw [List.foldl_cons, ih _ (s.cutPulse_pairsHeld held j) nodup, State.cutPulse_lookup, Option.map_map]
    congr 1
    funext r
    exact List.foldl_ext _ _ _ fun r i hi => by
      rw [(s.cutPulse_other_pulse held (ne_of_mem_of_not_mem hi out)).1]

end Sys2Proof.Machine

/-! PROOFS. The reverse debt's table with the start and the end of inhibition: ReverseDebtTable (O14). -/

namespace Sys2Proof.Machine

/-! ## The start of inhibition from a sound state (R90, R91, R102) -/

/-- What the start of inhibition makes of a channel; `released` says that its even partner's cut ends the claim on it. -/
def Channel.spelled (released : Bool) (ch : Channel) : Channel :=
  { ch with
    due := none, pending := none
    config := if ch.state.pulse.isSome then ch.pending.getD ch.config else ch.config
    dropped := match ch.state with
      | .armed l => some l.ct
      | _ => ch.dropped
    cut := match ch.state with
      | .on l _ => some l.ct
      | .gap l _ => some l.ct
      | _ => ch.cut
    state := match ch.state with
      | .disabled => .disabled
      | .claimed => if released then .disabled else .claimed
      | _ => .waiting }

/-- Does some cut release channel `k` from its even partner (R102)? -/
def State.released (s : State) (k : ChanNum) : Bool := s.cutOrder.any fun j => s.releases j k

theorem State.released_iff (s : State) (k : ChanNum) :
    s.released k = true ↔ ∃ j : ChanNum, j.val % 2 = 0 ∧ k.val = j.val + 1 ∧ (s.chans.get j).state.pulse.isSome = true ∧
      ∃ c ∈ (s.chans.get j).pending, c.mode ≠ .timeLong := by
  have pair : ∀ j : ChanNum, isEven j = true ∧ k = partnerOf j ↔ j.val % 2 = 0 ∧ k.val = j.val + 1 := by
    intro j
    simp only [isEven, beq_iff_eq, partnerOf, Fin.ext_iff]
    omega
  simp only [State.released, List.any_eq_true, State.mem_cutOrder, State.releases, Bool.and_eq_true, beq_iff_eq,
    Option.any_eq_true, bne_iff_ne]
  exact exists_congr fun j => by
    constructor
    · rintro ⟨pulse, ⟨⟨even, partner⟩, -⟩, staged⟩
      obtain ⟨low, next⟩ := (pair j).mp ⟨even, partner⟩
      exact ⟨low, next, pulse, staged⟩
    · rintro ⟨low, next, pulse, staged⟩
      exact ⟨pulse, ⟨(pair j).mpr ⟨low, next⟩, pulse⟩, staged⟩

theorem State.ChannelsOk.pairsHeld {s : State} (ok : s.ChannelsOk) : s.PairsHeld :=
  fun j even long => (ok.claimed j even).mpr long

theorem State.ChannelsOk.staged_pulse {s : State} (ok : s.ChannelsOk) (k : ChanNum)
    (h : (s.chans.get k).state.pulse = none) : (s.chans.get k).pending = none := by
  cases hp : (s.chans.get k).pending with
  | none => rfl
  | some c =>
    have := ((ok.each k).pending c hp).2
    rw [h] at this
    exact absurd this (by simp)

section

variable {s : State}

/-- The spell entered leaves the pairs held. -/
theorem State.PairsHeld.enterSpell (held : s.PairsHeld) :
    State.PairsHeld { s with chans := s.chans.map Channel.enterSpell } := by
  intro j even long
  have : (s.chans.get j).holdsLong = true := by simpa [Channel.holdsLong] using long
  simpa using held j even this

/-- The cuts of the start of inhibition, from a state whose pairs are held. -/
theorem State.cutAll_get (held : s.PairsHeld) (k : ChanNum) :
    s.cutAll.chans.get k
      = if (s.chans.get k).state.pulse.isSome = true then (s.chans.get k).enterSpell.cutWaiting
        else if (s.chans.get k).state = .claimed ∧ s.released k = true then
          { (s.chans.get k).enterSpell with state := .disabled }
        else (s.chans.get k).enterSpell := by
  have releases : (s.cutOrder.any fun j => State.releases { s with chans := s.chans.map Channel.enterSpell } j k)
      = s.released k := any_congr_mem fun j _ => by simp [State.releases]
  rw [State.cutAll, State.foldl_cut_get k s.cutOrder _ held.enterSpell s.nodup_cutOrder, releases]
  simp [State.mem_cutOrder]

/-- What the start of inhibition makes of each channel: the pulses cut and their staged configurations applied, the claims
that end released, and no channel without a pulse holding a staged configuration. -/
theorem State.beginInhibition_get (held : s.PairsHeld) (k : ChanNum)
    (staged : (s.chans.get k).state.pulse = none → (s.chans.get k).pending = none) :
    s.beginInhibition.chans.get k = (s.chans.get k).spelled (s.released k) := by
  rw [State.beginInhibition_get_eq, State.cutAll_get held]
  generalize s.released k = released
  generalize s.chans.get k = ch at staged ⊢
  obtain ⟨config, pending, state, due, overruns, dropped, cut⟩ := ch
  cases state with
  | on l pulse => rfl
  | gap l pulse => rfl
  | claimed =>
    obtain rfl : pending = none := staged rfl
    cases released <;> rfl
  | _ =>
    obtain rfl : pending = none := staged rfl
    rfl

/-- The requests of the start of inhibition: CHANNEL when a pulse is cut, STAGED when one applies a configuration. -/
theorem State.beginInhibition_requested (held : s.PairsHeld) (q : PortNum) (e : Event) :
    s.beginInhibition.requested q e = (s.requested q e ||
      (e == .channel && decide (∃ j, (s.chans.get j).state.pulse.isSome = true)) ||
      (e == .staged && decide (∃ j, (s.chans.get j).state.pulse.isSome = true ∧ (s.chans.get j).pending.isSome = true))) := by
  have pulses : (s.cutOrder.any fun j => (s.chans.get j).state.pulse.isSome)
      = decide (∃ j, (s.chans.get j).state.pulse.isSome = true) := by
    rw [Bool.eq_iff_iff, List.any_eq_true, decide_eq_true_eq]
    exact exists_congr fun j => by rw [State.mem_cutOrder, and_self]
  have staged : (s.cutOrder.any fun j => (s.chans.get j).state.pulse.isSome && (s.chans.get j).pending.isSome)
      = decide (∃ j, (s.chans.get j).state.pulse.isSome = true ∧ (s.chans.get j).pending.isSome = true) := by
    rw [Bool.eq_iff_iff, List.any_eq_true, decide_eq_true_eq]
    exact exists_congr fun j => by rw [State.mem_cutOrder, Bool.and_eq_true, and_self_left]
  have cuts := State.foldl_cut_requested q e s.cutOrder _ held.enterSpell s.nodup_cutOrder
  simp only [Bank.get_map, Channel.enterSpell_state, Channel.enterSpell_pending, pulses, staged] at cuts
  exact cuts

/-- The records after the start of inhibition: the stamps of the pulses cut are reversed, each on its own record. -/
theorem State.beginInhibition_lookup (held : s.PairsHeld) (y : Word) :
    s.beginInhibition.ttb.lookup y = (s.ttb.lookup y).map fun r =>
      s.cutOrder.foldl (fun r j => r.reversed (s.chans.get j).state.pulse y) r := by
  have cuts := State.foldl_cut_lookup y s.cutOrder _ held.enterSpell s.nodup_cutOrder
  simp only [Bank.get_map, Channel.enterSpell_state] at cuts
  exact cuts

end

/-- Channel work whole: what it leaves, and the count of free choices apart. -/
theorem State.ChannelWork.eq {s t : State} (h : s.ChannelWork t) :
    t = { s with ttb := { s.ttb with slots := t.ttb.slots }, chans := t.chans, events := t.events, frees := t.frees } := by
  obtain ⟨phu, ports, bfu, bti, straps, clock, sda, pending, table, -⟩ := h
  rw [← table, ← phu, ← ports, ← bfu, ← bti, ← straps, ← clock, ← sda, ← pending]

/-! ## The reversal as the statements write it -/

theorem Record.reversed_eq (pulse : Option Pulse) (y : Word) (r : Record) :
    r.reversed pulse y = match pulse with
      | none => r
      | some pulse => if pulse.gating = ⟨y, some r.birth⟩ then (match pulse.stamp with
          | none => r
          | some (.result f) => r.mergeResult f .fault
          | some (.route v) => { r with route := if r.route = v then .stream else r.route }) else r := by
  cases pulse with
  | none => rfl
  | some pulse =>
    obtain ⟨gating, stamp, dots, timer⟩ := pulse
    cases stamp with
    | none => rfl
    | some st =>
      cases st with
      | result f => rfl
      | route v =>
        have route : r.unstamp (.route v) = { r with route := if r.route = v then .stream else r.route } := by
          simp only [Record.unstamp]
          split <;> rfl
        simp only [Record.reversed, route]

/-! ## The table (R8) -/

/-- A crossing that starts inhibition, whole: the state whose inhibition begins. -/
def State.reversing (jumped : Bool) (s : State) : State :=
  ((s.counted .backward jumped (s.phu.p - 1)).modPhu fun u => { u with debt := 1 }).raise .reverse

theorem State.countBackward_start {s : State} (jumped : Bool) (zero : s.phu.mc = 0) (synced : s.phu.phase = .synced)
    (debt : s.phu.debt = 0) : s.countBackward jumped = (s.reversing jumped).beginInhibition := by
  rw [State.countBackward_crossing jumped zero synced, State.crossBackward_start (by exact debt)]
  rfl

theorem State.countBackward_more {s : State} (jumped : Bool) (zero : s.phu.mc = 0) (synced : s.phu.phase = .synced)
    (debt : s.phu.debt ≠ 0) (more : s.phu.debt < 15) :
    s.countBackward jumped = (s.counted .backward jumped (s.phu.p - 1)).modPhu fun u => { u with debt := u.debt + 1 } := by
  rw [State.countBackward_crossing jumped zero synced]
  exact State.crossBackward_more debt more

theorem State.countBackward_overflow {s : State} (jumped : Bool) (zero : s.phu.mc = 0) (synced : s.phu.phase = .synced)
    (debt : 15 ≤ s.phu.debt) : s.countBackward jumped
      = (State.enterLost ((s.counted .backward jumped (s.phu.p - 1)).modPhu fun u => { u with debt := 0 })).endInhibition
          false := by
  rw [State.countBackward_crossing jumped zero synced]
  exact State.crossBackward_overflow debt

/-- A backward crossing requests REVERSE exactly when the debt was 0. -/
theorem State.crossBackward_reverse (s : State) (q : PortNum) :
    s.crossBackward.requested q .reverse = (s.requested q .reverse || s.phu.debt == 0) := by
  by_cases none : s.phu.debt = 0
  · rw [State.crossBackward_start none, (State.beginInhibition_raises _).only q .reverse (by decide), State.requested_raise,
      none]
    rfl
  · rw [beq_false_of_ne none, Bool.or_false]
    by_cases more : s.phu.debt < 15
    · rw [State.crossBackward_more none more]
      rfl
    · rw [State.crossBackward_overflow (by omega), State.requested_congr (State.endInhibition_events _ _),
        State.requested_enterLost]
      exact Bool.or_false _

/-- Settles O14: each row of the table is one case of `State.crossBackward` or of a forward crossing, the spell's start by
`State.beginInhibition_get` and its end by `Channel.resume`. -/
theorem reverseDebtTable : Obligations.ReverseDebtTable := by
  rintro s jumped feed splice q e k ch released bounded resumed synced few rfl hbounded hreleased hresumed
  replace hreleased : released = s.released k := by
    rw [hreleased, Bool.eq_iff_iff, decide_eq_true_eq, State.released_iff]
  replace hresumed : ∀ repaid x, resumed repaid x = (s.chans.get k).resume repaid s.phu.p s.phu.speed x := by
    intro repaid x
    rw [hresumed, eq_notBefore hbounded, Channel.resume_eq] <;> cases (s.chans.get k).state <;> rfl
  refine ⟨fun zero => ?_, fun zero debt ok => ?_, fun top owing => ?_, fun top debt => ?_⟩
  · rw [exec_backwardCount_eq]
    have crossing := State.countBackward_crossing jumped zero synced
    refine completes_next ⟨?_, ?_, ?_, fun debt => ?_, fun owing more => ?_, fun full => ?_⟩
    · rw [crossing, State.crossBackward_phu]
      rfl
    · rw [crossing, State.crossBackward_phu]
      rfl
    · rw [crossing, State.crossBackward_reverse]
      rfl
    · rw [State.countBackward_start jumped zero synced debt]
      exact State.beginInhibition_latch _ k
    · rw [State.countBackward_more jumped zero synced (Nat.ne_of_gt owing) more]
      rfl
    · rw [State.countBackward_overflow jumped zero synced (Nat.le_of_eq full.symm)]
      refine ⟨?_, ?_, ?_, ?_, ?_⟩
      · rfl
      · exact State.enterLost_tracking _
      · exact State.requested_enterLost _ q e
      · exact State.enterLost_enable _ q
      · rw [State.endInhibition_get, hresumed]
        rfl
  · have held : (s.reversing jumped).PairsHeld := ok.pairsHeld
    have work := (s.reversing jumped).beginInhibition_channelWork
    rw [exec_backwardCount_eq, State.countBackward_start jumped zero synced debt]
    refine completes_next ⟨?_, ?_, ?_, ?_, s.cutOrder, s.nodup_cutOrder, s.mem_cutOrder, fun y => ?_⟩
    · rw [work.eq, State.beginInhibition_frees]
      rfl
    · rw [State.beginInhibition_get held k (ok.staged_pulse k), hreleased]
      rfl
    · rw [State.beginInhibition_requested held, State.reversing, State.requested_raise]
      rfl
    · rw [work.enables, State.reversing, State.raise_get, EventSets.add_enable]
      rfl
    · rw [State.beginInhibition_lookup held]
      simp only [Record.reversed_eq]
      rfl
  · rw [exec_forwardCount_eq, State.countForward_repay jumped feed splice (by omega) synced (Nat.ne_of_gt owing)]
    refine completes_next ⟨?_, ?_, ?_, fun more => ?_, fun last => ?_⟩
    · rw [State.repay_frame, State.countMissing_frame]
      rfl
    · rw [State.requested_repay, State.requested_countMissing]
      rfl
    · rw [State.repay_enable, State.countMissing_enable]
      rfl
    · rw [State.repay_chans_owing _ (by rw [State.countMissing_phu]; exact more), State.countMissing_chans]
      rfl
    · rw [State.repay_get_last _ (by rw [State.countMissing_phu]; exact last), State.countMissing_phu,
        State.countMissing_chans, hresumed]
      rfl
  · rw [exec_forwardCount_eq, State.countForward_advance jumped feed splice (by omega) synced debt]
    obtain ⟨phu, advances, -, -⟩ := (s.counted .forward jumped 0).advanceCount_phu feed splice
    exact completes_next ⟨by rw [phu]; rfl, by rw [phu]; exact debt, advances⟩

end Sys2Proof.Machine

/-! PROOFS. SET_LINE: its refusals and what it sets when it is taken: SetLineOutcomes (O27). -/

namespace Sys2Proof.Machine

/-! ## Cuts against an empty table (R29, R98) -/

theorem Ttb.unstamp_of_empty {t : Ttb} (empty : ∀ y, t.lookup y = none) (pulse : Pulse) : t.unstamp pulse = t := by
  unfold Ttb.unstamp
  split
  · rfl
  · rw [Ttb.writeHeld_eq, empty]
    rfl

theorem State.cutPulse_ttb_of_empty {s : State} (empty : ∀ y, s.ttb.lookup y = none) (after : ChanState) (k : ChanNum) :
    (s.cutPulse after k).ttb = s.ttb := by
  unfold State.cutPulse
  split
  · rfl
  · rw [State.applyPending_ttb]
    exact Ttb.unstamp_of_empty empty _

theorem State.foldl_cut_ttb_of_empty (after : ChanState) (ks : List ChanNum) : ∀ s : State,
    (∀ y, s.ttb.lookup y = none) → (ks.foldl (State.cutPulse after) s).ttb = s.ttb := by
  induction ks with
  | nil => exact fun _ _ => rfl
  | cons k rest ih =>
    intro s empty
    have cut := State.cutPulse_ttb_of_empty empty after k
    rw [List.foldl_cons, ih _ (by rwa [cut]), cut]

theorem State.beginInhibition_ttb_of_empty {s : State} (empty : ∀ y, s.ttb.lookup y = none) :
    s.beginInhibition.ttb = s.ttb :=
  State.foldl_cut_ttb_of_empty .waiting s.cutOrder _ empty

/-! ## Facts of the channels that hold of any state with the same ones -/

theorem State.PairsHeld.of_chans {s t : State} (same : t.chans = s.chans) (held : s.PairsHeld) : t.PairsHeld := by
  unfold State.PairsHeld
  rw [same]
  exact held

theorem State.released_of_chans {s t : State} (same : t.chans = s.chans) (k : ChanNum) : t.released k = s.released k := by
  rw [Bool.eq_iff_iff, State.released_iff, State.released_iff, same]

/-- A state equals another but for the parts named if the others are the same. -/
theorem State.eq_of_outside {s t : State} (ports : t.ports = s.ports) (bfu : t.bfu = s.bfu) (bti : t.bti = s.bti)
    (straps : t.straps = s.straps) (clock : t.clock = s.clock) (sda : t.sda = s.sda) (pending : t.pending = s.pending) :
    t = { s with phu := t.phu, ttb := t.ttb, chans := t.chans, events := t.events, frees := t.frees } := by
  rw [← ports, ← bfu, ← bti, ← straps, ← clock, ← sda, ← pending]

/-! ## The line set anew (R13, R43, R107) -/

/-- The line set anew with its tolerance, P as it was. -/
def State.relined (l kc t : Nat) (s : State) : State :=
  (s.modTable (Ttb.setLine l kc)).modPhu fun u => { u with t := min t toleranceLimit }

/-- The line set anew with a changed P, before inhibition begins. -/
def State.recounted (l kc counts t : Nat) (s : State) : State := (s.relined l kc t).modPhu (Phu.setCounts counts)

section

variable (l kc t : Nat) {counts : Nat} {s : State}

theorem State.takeLine_same (h : counts = s.phu.p) : s.takeLine l kc counts t = s.relined l kc t := if_pos h

theorem State.takeLine_changed (h : counts ≠ s.phu.p) :
    s.takeLine l kc counts t = { (s.recounted l kc counts t).beginInhibition with
      chans := (s.recounted l kc counts t).beginInhibition.chans.map (Channel.clampTo counts) } := if_neg h

theorem State.takeLine_channelWork (h : counts ≠ s.phu.p) :
    (s.recounted l kc counts t).ChannelWork (s.takeLine l kc counts t) := by
  rw [State.takeLine_changed l kc t h]
  exact (s.recounted l kc counts t).beginInhibition_channelWork.trans (State.channelWork_chans _ _)

/-- Every serial is unknown once the line is set. -/
theorem Ttb.setLine_lookup (table : Ttb) (y : Word) : (table.setLine l kc).lookup y = none := by
  simp [Ttb.lookup, Ttb.setLine]

/-- The table a taken SET_LINE leaves: nothing is stamped again by the cuts. -/
theorem State.takeLine_ttb (counts : Nat) (s : State) : (s.takeLine l kc counts t).ttb = s.ttb.setLine l kc := by
  by_cases h : counts = s.phu.p
  · rw [State.takeLine_same l kc t h]
    rfl
  · rw [State.takeLine_changed l kc t h]
    exact State.beginInhibition_ttb_of_empty (s := s.recounted l kc counts t) (Ttb.setLine_lookup l kc s.ttb)

theorem State.takeLine_frame (counts : Nat) (s : State) :
    s.takeLine l kc counts t = { s with
      phu := (s.takeLine l kc counts t).phu, chans := (s.takeLine l kc counts t).chans
      events := (s.takeLine l kc counts t).events, frees := (s.takeLine l kc counts t).frees
      ttb := { s.ttb with l := l, kc := kc, slots := (s.takeLine l kc counts t).ttb.slots, advances := 0 } } := by
  have table : { s.ttb with l := l, kc := kc, slots := (s.takeLine l kc counts t).ttb.slots, advances := 0 }
      = (s.takeLine l kc counts t).ttb := by
    rw [State.takeLine_ttb]
    rfl
  rw [table]
  by_cases h : counts = s.phu.p
  · rw [State.takeLine_same l kc t h]
    rfl
  · obtain ⟨-, ports, bfu, bti, straps, clock, sda, pending, -, -⟩ := State.takeLine_channelWork l kc t h
    exact State.eq_of_outside ports bfu bti straps clock sda pending

theorem State.takeLine_enable (counts : Nat) (s : State) (q : PortNum) :
    ((s.takeLine l kc counts t).events.get q).enable = (s.events.get q).enable := by
  by_cases h : counts = s.phu.p
  · rw [State.takeLine_same l kc t h]
    rfl
  · exact (State.takeLine_channelWork l kc t h).enables q

theorem State.takeLine_phu (h : counts ≠ s.phu.p) :
    (s.takeLine l kc counts t).phu = { s.phu with
      p := counts, t := min t 63, mc := 0, phase := .unsynced, debt := 0, missing := 0 } :=
  (State.takeLine_channelWork l kc t h).phu

theorem State.takeLine_frees (h : counts ≠ s.phu.p) : (s.takeLine l kc counts t).frees = s.frees + 1 := by
  rw [State.takeLine_changed l kc t h]
  exact (s.recounted l kc counts t).beginInhibition_frees

theorem State.takeLine_get (h : counts ≠ s.phu.p) (k : ChanNum) :
    (s.takeLine l kc counts t).chans.get k
      = ((s.recounted l kc counts t).beginInhibition.chans.get k).clampTo counts := by
  rw [State.takeLine_changed l kc t h]
  exact Bank.get_map _ _ k

end

/-- A configuration brought within P has its angles and its lead limit below P (R107). -/
theorem ChanConfig.clampTo_within {p : Nat} (pos : 0 < p) (c : ChanConfig) :
    (c.clampTo p).onAngle < p ∧ (c.clampTo p).offAngle < p ∧ (c.clampTo p).leadLimit < p := by
  have bound : ∀ n, min n (p - 1) < p := fun n => by omega
  exact ⟨bound _, bound _, bound _⟩

/-- With a changed P each channel begins inhibition and then has its applied configuration brought within the new P. -/
theorem State.takeLine_get_spelled (l kc t : Nat) {counts : Nat} {s : State} (h : counts ≠ s.phu.p) (held : s.PairsHeld)
    (k : ChanNum) (staged : (s.chans.get k).state.pulse = none → (s.chans.get k).pending = none) :
    (s.takeLine l kc counts t).chans.get k = ((s.chans.get k).spelled (s.released k)).clampTo counts := by
  rw [State.takeLine_get l kc t h, State.beginInhibition_get (s := s.recounted l kc counts t) held k staged]
  rfl

/-- What a changed P leaves of a channel whatever the state was: no target and no due cycle, and its angles and its lead
limit below the new P. -/
theorem State.takeLine_get_any (l kc t : Nat) {counts : Nat} {s : State} (pos : 0 < counts) (h : counts ≠ s.phu.p)
    (k : ChanNum) (u : Channel) (hu : u = (s.takeLine l kc counts t).chans.get k) :
    u.state.latch = none ∧ u.due = none ∧
      (u.config.onAngle < counts ∧ u.config.offAngle < counts ∧ u.config.leadLimit < counts) ∧
      u.overruns = (s.chans.get k).overruns := by
  rw [State.takeLine_get l kc t h] at hu
  obtain ⟨latch, due⟩ := (s.recounted l kc counts t).beginInhibition_latch k
  subst hu
  exact ⟨latch, due, ChanConfig.clampTo_within pos _, (s.recounted l kc counts t).beginInhibition_overruns k⟩

/-- The requests of a changed P are those of the start of inhibition. -/
theorem State.takeLine_requested (l kc t : Nat) {counts : Nat} {s : State} (h : counts ≠ s.phu.p) (held : s.PairsHeld)
    (q : PortNum) (e : Event) :
    (s.takeLine l kc counts t).requested q e = (s.requested q e ||
      (e == .channel && decide (∃ j, (s.chans.get j).state.pulse.isSome = true)) ||
      (e == .staged && decide (∃ j, (s.chans.get j).state.pulse.isSome = true ∧ (s.chans.get j).pending.isSome = true))) := by
  rw [State.takeLine_changed l kc t h]
  exact State.beginInhibition_requested (s := s.recounted l kc counts t) held q e

/-! ## The checks (R42) -/

theorem Record.uncountedBlank_iff (r : Record) :
    r.uncountedBlank = true ↔ r.place = .inLine ∧ r.kind ≠ .void ∧ r.cls = .uncounted := by
  simp [Record.uncountedBlank, Record.untrusted, Record.inLine, and_assoc]

/-- Check 2: the line stands still and no uncounted blank is on it. -/
theorem State.lineIdle_iff (s : State) : s.lineIdle = true ↔ s.phu.speed = 0 ∧
    ∀ i, ∀ r ∈ s.ttb.slots.get i, ¬ (r.place = .inLine ∧ r.kind ≠ .void ∧ r.cls = .uncounted) := by
  simp only [State.lineIdle, Ttb.countRecords_eq, Bool.and_eq_true, beq_iff_eq, List.countP_eq_zero, List.mem_finRange,
    true_imp_iff, Option.any_eq_true, not_exists, not_and, ← Record.uncountedBlank_iff,
    Option.mem_def]

/-- SET_LINE of a port with SETUP, outside INIT. -/
theorem exec_setLine_eq {s : State} {p : PortNum} (l kc t : Byte) (counts : Word) (init : s.bti ≠ .init)
    (setup : (s.ports.get p).privileges.setup = true) :
    exec (.setLine p l kc counts t) s
      = .next { (s.openWrite p).setLine p l.toNat kc.toNat counts.toNat t.toNat with bti := .idle } := by
  have holds : (s.openWrite p).hasSetup p = true := by rw [State.hasSetup, State.openWrite_privileges, setup]
  show execSetLine p l kc counts t s = _
  rw [execSetLine, transact_next _ _ _ init, holds]
  rfl

section

variable {s : State} (p : PortNum) {l kc counts : Nat} (t : Nat)

theorem State.setLine_range (bad : ¬ s.lineOperandsOk l kc counts = true) :
    s.setLine p l kc counts t = s.answer p .range Code.setLine [] := by
  simp [State.setLine, bad]

theorem State.setLine_busy (ok : s.lineOperandsOk l kc counts = true) (busy : ¬ s.lineIdle = true) :
    s.setLine p l kc counts t = s.answer p .busy Code.setLine [] := by
  simp [State.setLine, ok, busy]

theorem State.setLine_taken (ok : s.lineOperandsOk l kc counts = true) (idle : s.lineIdle = true) :
    s.setLine p l kc counts t = (s.takeLine l kc counts t).answer p .ok Code.setLine [] := by
  simp [State.setLine, ok, idle]

end

/-- Settles O27: the operand check and the idle check decide between RANGE, BUSY and the line taken, whose channels are
those of a start of inhibition (`State.takeLine_get_spelled`) when P changes. -/
theorem setLineOutcomes : Obligations.SetLineOutcomes := by
  rintro s p q l kc t counts k x e ch released within init setup rfl hreleased hwithin
  replace hreleased : released = s.released k := by
    rw [hreleased, Bool.eq_iff_iff, decide_eq_true_eq, State.released_iff]
  rw [exec_setLine_eq l kc t counts init setup]
  have chans := s.openWrite_chans p
  have phu := s.openWrite_phu p
  have ttb := s.openWrite_ttb p
  have operands := (s.openWrite p).lineOperandsOk_iff l.toNat kc.toNat counts.toNat
  rw [chans] at operands
  have idle := (s.openWrite p).lineIdle_iff
  rw [phu, ttb] at idle
  refine ⟨fun bad => ?_, fun l2 l48 kc1 kcl p256 pmax fits => ⟨fun busy => ?_, fun still clear => ?_⟩⟩
  · rw [State.setLine_range]
    · rfl
    · rw [operands]
      rintro ⟨l2, l48, kc1, kcl, p256, pmax, fits⟩
      obtain ⟨sp, staged⟩ := fits k
      rcases bad with bad | bad | bad | bad | bad | bad | bad | ⟨c, hc, bad⟩
      case inr.inr.inr.inr.inr.inr.inr => exact absurd (staged c hc) (not_lt.mpr bad)
      all_goals omega
  · rw [State.setLine_busy p t.toNat (operands.mpr ⟨l2, l48, kc1, kcl, p256, pmax, fits⟩)]
    · rfl
    · rw [idle]
      rintro ⟨still, clear⟩
      obtain moving | ⟨r, hr, uncounted⟩ := busy
      · exact moving still
      · exact clear _ r ((Ttb.lookup_eq_some _ _ _).mp hr).1 uncounted
  · rw [State.setLine_taken p t.toNat (operands.mpr ⟨l2, l48, kc1, kcl, p256, pmax, fits⟩) (idle.mpr ⟨still, clear⟩)]
    have frame := (s.openWrite p).takeLine_frame l.toNat kc.toNat t.toNat counts.toNat
    have table := (s.openWrite p).takeLine_ttb l.toNat kc.toNat t.toNat counts.toNat
    rw [ttb] at frame
    refine completes_next ⟨?_, fun i => ?_, ?_, ?_, fun same => ?_, fun changed => ?_⟩
    · exact congrArg (fun u => State.answered u p ⟨.ok, 0x23, []⟩) frame
    · exact (congrArg (fun t => t.slots.get i) table).trans (Bank.get_fill _ _)
    · exact (congrArg (fun t => t.lookup x) table).trans (Ttb.setLine_lookup _ _ _ x)
    · refine (State.takeLine_enable _ _ _ _ _ q).trans ?_
      rw [State.openWrite_events]
    · rw [State.takeLine_same _ _ _ (by rw [phu]; exact same)]
      exact ⟨by rw [← phu]; rfl, chans, State.openWrite_events s p, State.openWrite_frees s p⟩
    · replace changed : counts.toNat ≠ (s.openWrite p).phu.p := by rwa [phu]
      obtain ⟨latch, due, angles, overruns⟩ := State.takeLine_get_any l.toNat kc.toNat t.toNat (by omega) changed k _ rfl
      obtain ⟨onAngle, offAngle, leadLimit⟩ := angles
      refine ⟨?_, ?_, latch, due, onAngle, offAngle, leadLimit, ?_, fun ok => ?_⟩
      · exact (State.takeLine_phu _ _ _ changed).trans (by rw [phu])
      · exact (State.takeLine_frees _ _ _ changed).trans (by rw [State.openWrite_frees])
      · exact overruns.trans (by rw [chans])
      · have held : (s.openWrite p).PairsHeld := ok.pairsHeld.of_chans chans
        refine ⟨?_, ?_⟩
        · rintro c rfl
          have get := State.takeLine_get_spelled l.toNat kc.toNat t.toNat changed held k
            (by rw [chans]; exact ok.staged_pulse k)
          rw [chans, State.released_of_chans chans, ← hreleased] at get
          have clamp : within = fun n => min n (counts.toNat - 1) := by
            rw [hwithin]
            funext n
            split <;> omega
          rw [clamp]
          exact get
        · refine (State.takeLine_requested l.toNat kc.toNat t.toNat changed held q e).trans ?_
          rw [chans, State.requested_congr (State.openWrite_events s p)]

end Sys2Proof.Machine

/-! PROOFS. The Tracking Table slot by slot: what each slot holds after a write, after a close and after a classification, and
the two things the records keep: their standing and their marks. -/

namespace Sys2Proof.Machine

/-! ## What a slot holds after a write (R20, R29) -/

theorem Ttb.write_get (t : Ttb) (x : Word) (f : Record → Record) (k : Fin 64) :
    (t.write x f).slots.get k = (t.slots.get k).map fun r => if k = slotOf x ∧ r.serial = x then f r else r := by
  unfold Ttb.write Ttb.lookup
  by_cases hk : k = slotOf x
  · subst hk
    cases h : t.slots.get (slotOf x) with
    | none => simp [h]
    | some r => by_cases e : r.serial = x <;> simp [e, h]
  · have same : ∀ o : Option Record, o = o.map fun r => if k = slotOf x ∧ r.serial = x then f r else r := fun o => by
      cases o <;> simp [hk]
    rw [← same]
    split
    · rfl
    · exact Bank.get_put_ne _ _ hk

/-- A write counts only for the record it finds. -/
theorem Ttb.write_congr (t : Ttb) (x : Word) {f g : Record → Record} (h : ∀ r, t.lookup x = some r → f r = g r) :
    t.write x f = t.write x g := by
  unfold Ttb.write
  split
  · rfl
  · next r found => rw [h r found]

theorem Ttb.writeHeld_get (t : Ttb) (h : Held) (f : Record → Record) (k : Fin 64) :
    (t.writeHeld h f).slots.get k = (t.slots.get k).map fun r =>
      if k = slotOf h.serial ∧ r.serial = h.serial ∧ h.birth = some r.birth then f r else r := by
  rw [Ttb.writeHeld_eq]
  by_cases hk : k = slotOf h.serial
  · subst hk
    unfold Ttb.lookup
    cases e : t.slots.get (slotOf h.serial) with
    | none => simp [e]
    | some r =>
      by_cases serial : r.serial = h.serial <;> by_cases birth : h.birth = some r.birth <;>
        simp [Ttb.write_get, e, serial, birth]
  · have same : ∀ o : Option Record, (o.map fun r =>
        if k = slotOf h.serial ∧ r.serial = h.serial ∧ h.birth = some r.birth then f r else r) = o := fun o => by
      cases o <;> simp [hk]
    rw [same]
    split
    · rw [Ttb.write_get]
      cases t.slots.get k <;> simp [hk]
    · rfl

theorem Ttb.mapRecords_get (t : Ttb) (f : Record → Record) (k : Fin 64) :
    (t.mapRecords f).slots.get k = (t.slots.get k).map f :=
  Bank.get_map _ _ k

/-! ## Batch end apart (R139) -/

/-- The record but for its batch end. -/
def Record.unended (r : Record) : Record := { r with batchEnd := false }

theorem Record.serial_of_unended {r r' : Record} (h : r.unended = r'.unended) : r.serial = r'.serial := by
  show r.unended.serial = r'.unended.serial
  rw [h]

/-- `u` is the table `t` but for batch ends. -/
structure Ttb.Ended (t u : Ttb) : Prop where
  rest : u = { t with slots := u.slots }
  slots : ∀ k, (u.slots.get k).map Record.unended = (t.slots.get k).map Record.unended

namespace Ttb.Ended

variable {t u v : Ttb}

theorem refl (t : Ttb) : t.Ended t := ⟨rfl, fun _ => rfl⟩

theorem of_eq (h : u = t) : t.Ended u := h ▸ refl t

theorem trans (h : t.Ended u) (g : u.Ended v) : t.Ended v :=
  ⟨by rw [g.rest, h.rest], fun k => (g.slots k).trans (h.slots k)⟩

theorem write (t : Ttb) (x : Word) : t.Ended (t.write x Record.markEnd) where
  rest := Ttb.write_frame t x _
  slots k := by
    rw [Ttb.write_get]
    cases t.slots.get k with
    | none => rfl
    | some r => simp only [Option.map_some]; split <;> rfl

theorem writeHeld (t : Ttb) (h : Held) : t.Ended (t.writeHeld h Record.markEnd) := by
  rw [Ttb.writeHeld_eq]
  split
  · exact write t h.serial
  · exact refl t

/-- A write that is the same whatever the batch ends are. -/
theorem write_write (h : t.Ended u) (x : Word) (f : Record → Record)
    (hf : ∀ r r' : Record, r.unended = r'.unended → (f r).unended = (f r').unended) :
    (t.write x f).Ended (u.write x f) where
  rest := by rw [Ttb.write_frame u, Ttb.write_frame t, h.rest]
  slots k := by
    have slot := h.slots k
    rw [Ttb.write_get, Ttb.write_get]
    cases hu : u.slots.get k with
    | none =>
      rw [hu] at slot
      rw [Option.map_eq_none_iff.mp slot.symm]
    | some r' =>
      rw [hu, Option.map_some] at slot
      obtain ⟨r, hr, same⟩ := Option.map_eq_some_iff.mp slot.symm
      have serial : r.serial = r'.serial := Record.serial_of_unended same
      rw [hr, Option.map_some, Option.map_some, Option.map_some, Option.map_some, serial]
      split
      · rw [hf r' r same.symm]
      · rw [same]

/-- What a lookup finds, it finds but for batch ends. -/
theorem lookup (h : t.Ended u) (x : Word) : (u.lookup x).map Record.unended = (t.lookup x).map Record.unended := by
  have slot := h.slots (slotOf x)
  unfold Ttb.lookup
  cases hu : u.slots.get (slotOf x) with
  | none =>
    rw [hu] at slot
    rw [Option.map_eq_none_iff.mp slot.symm]
  | some r' =>
    rw [hu, Option.map_some] at slot
    obtain ⟨r, hr, same⟩ := Option.map_eq_some_iff.mp slot.symm
    have serial : r.serial = r'.serial := Record.serial_of_unended same
    rw [hr]
    dsimp only
    rw [serial]
    split
    · rw [Option.map_some, Option.map_some, same]
    · rfl

end Ttb.Ended

theorem State.placeBatchEnd_ended (s : State) : s.ttb.Ended s.placeBatchEnd.ttb := by
  unfold State.placeBatchEnd
  split
  · exact .refl _
  · exact .writeHeld _ _

theorem State.jobTest_ended (s : State) (j : JobNum) : s.ttb.Ended (s.jobTest j).ttb := by
  unfold State.jobTest
  dsimp only
  split
  · exact .refl _
  · split
    · exact .refl _
    · split
      · exact s.placeBatchEnd_ended.trans (.of_eq (State.closeBatch_ttb _ _ _ _))
      · exact .of_eq (State.raiseQfull_ttb _)

theorem State.sizeTest_ended (s : State) (x : Word) : s.ttb.Ended (s.sizeTest x).ttb := by
  unfold State.sizeTest
  dsimp only
  split
  · exact .refl _
  · split
    · exact (Ttb.Ended.write s.ttb x).trans (.of_eq (State.closeBatch_ttb _ _ _ _))
    · exact .of_eq (State.raiseQfull_ttb _)

/-! ## Classification (R127, R132) -/

/-- What the classification of the record `r` writes into a record, when the open batch has the number given. -/
def Record.classed (r : Record) (number : Word) (r' : Record) : Record :=
  if r.kind = .void then { r' with cls := .voidSkip }
  else { r' with cls := classOf r.route r.reject.isSome, batch := some number }

theorem Record.classed_void {r : Record} (h : r.kind = .void) (number : Word) :
    r.classed number = fun r' => { r' with cls := .voidSkip } :=
  funext fun _ => if_pos h

theorem Record.classed_blank {r : Record} (h : r.kind ≠ .void) (number : Word) :
    r.classed number = fun r' => { r' with cls := classOf r.route r.reject.isSome, batch := some number } :=
  funext fun _ => if_neg h

theorem Record.classed_frame (r : Record) (number : Word) (r' : Record) :
    r.classed number r' = { r' with cls := (r.classed number r').cls, batch := (r.classed number r').batch } := by
  unfold Record.classed
  split <;> rfl

theorem Record.classed_unended (r : Record) (number : Word) (a b : Record) (h : a.unended = b.unended) :
    (r.classed number a).unended = (r.classed number b).unended := by
  have outside : ∀ a : Record, (r.classed number a).unended = r.classed number a.unended := fun a => by
    unfold Record.classed
    split <;> rfl
  rw [outside, outside, h]

theorem classOf_ne (v : Route) (rejected : Bool) : classOf v rejected ≠ .uncounted ∧ classOf v rejected ≠ .voidSkip := by
  cases v <;> cases rejected <;> decide

/-- A classified record has a class, VOID_SKIP exactly when it is VOID, and a batch exactly when it is not. -/
theorem Record.classed_cls (r : Record) (number : Word) (r' : Record) :
    (r.classed number r').cls ≠ .uncounted ∧ ((r.classed number r').cls = .voidSkip ↔ r.kind = .void) ∧
      (r.classed number r').batch = if r.kind = .void then r'.batch else some number := by
  by_cases kind : r.kind = .void
  · simp [Record.classed_void kind, kind]
  · simp [Record.classed_blank kind, kind, classOf_ne]

/-- But for batch ends, a classification writes the class and the batch of one record. -/
theorem State.classify_ended (s : State) (r : Record) :
    ∃ number, (s.ttb.write r.serial (r.classed number)).Ended (s.classify r).ttb := by
  unfold State.classify
  by_cases kind : r.kind = .void
  · refine ⟨0, .of_eq ?_⟩
    rw [if_pos kind, Record.classed_void kind]
    rfl
  · refine ⟨(s.jobTest r.job).bfu.openBatch.number, ?_⟩
    have written := (s.jobTest_ended r.job).write_write r.serial _
      (r.classed_unended (s.jobTest r.job).bfu.openBatch.number)
    rw [if_neg kind]
    refine written.trans ?_
    rw [Record.classed_blank kind]
    unfold State.countRecord
    dsimp only
    split
    · exact Ttb.Ended.trans (.of_eq (by rfl)) (State.sizeTest_ended _ _)
    · exact .refl _

/-- The record handed over at Kc, if an IN_LINE one stands there (R25). -/
theorem State.handOff_of_found {s : State} {r : Record} (found : s.ttb.lookup (s.phu.cycle - BitVec.ofNat 16 s.ttb.kc) = some r)
    (line : r.place = .inLine) : s.handOff = s.classify r := by
  simp [State.handOff, found, Record.inLine, line]

theorem State.handOff_of_none {s : State}
    (none : ∀ r ∈ s.ttb.lookup (s.phu.cycle - BitVec.ofNat 16 s.ttb.kc), r.place ≠ .inLine) : s.handOff = s := by
  unfold State.handOff
  split
  · rfl
  · next r found => simp [Record.inLine, none r found]

end Sys2Proof.Machine

/-! PROOFS. What every command keeps of the records: their standing (which record, where, counted how) and their marks
(reject, FURTHER, FAULT results and job). -/

namespace Sys2Proof.Machine

/-! ## The standing of a record: which one it is, where it is and how it is counted -/

/-- What the advances and the counting alone decide of a record. -/
def Record.standing (r : Record) : Word × Nat × Place × BlankClass × Option Word :=
  (r.serial, r.birth, r.place, r.cls, r.batch)

theorem Record.standing_eq_iff (r r' : Record) : r'.standing = r.standing ↔
    r'.serial = r.serial ∧ r'.birth = r.birth ∧ r'.place = r.place ∧ r'.cls = r.cls ∧ r'.batch = r.batch := by
  simp [Record.standing]

/-- From `t` to `u` no record comes, goes or changes its standing, and L, Kc and the counts stay. -/
structure Ttb.Stands (t u : Ttb) : Prop where
  l : u.l = t.l
  kc : u.kc = t.kc
  advances : u.advances = t.advances
  births : u.births = t.births
  slots : ∀ k, (u.slots.get k).map Record.standing = (t.slots.get k).map Record.standing

/-! ## The marks of a record (R30, R31) -/

/-- What the marks of one record imply while the tracking state is `tracking`: the clauses of `Ttb.Marked`. -/
structure Record.Sound (tracking : Tracking) (r : Record) : Prop where
  fault : ∀ f, r.results.get f = .fault → r.reject.isSome
  splice : r.kind = .splice → r.reject.isSome
  diverted : r.route = .diverted → r.reject.isSome
  lost : tracking = .lost → r.untrusted = true → r.reject.isSome

theorem Ttb.marked_iff (t : Ttb) : t.Marked ↔ ∀ k r, t.slots.get k = some r → r.Sound t.tracking :=
  ⟨fun h k r e => ⟨fun f => h.fault k r f e, h.splice k r e, h.diverted k r e, fun x => h.lost k r x e⟩,
    fun h => ⟨fun k r f e => (h k r e).fault f, fun k r e => (h k r e).splice, fun k r e => (h k r e).diverted,
      fun k r x e => (h k r e).lost x⟩⟩

theorem Record.Sound.of_reject {r : Record} (h : r.reject.isSome = true) (tracking : Tracking) : r.Sound tracking :=
  ⟨fun _ _ => h, fun _ => h, fun _ => h, fun _ _ => h⟩

/-- `r'` is the record `r` with its marks kept, while the tracking state goes from `before` to `after`. -/
structure Record.MarksKept (before after : Tracking) (r r' : Record) : Prop where
  serial : r'.serial = r.serial
  birth : r'.birth = r.birth
  job : r'.job = r.job
  reject : r.reject.isSome → r'.reject = r.reject
  further : r.further = true → r'.further = true
  fault : ∀ f, r.results.get f = .fault → r'.results.get f = .fault
  sound : r.Sound before → r'.Sound after

namespace Record.MarksKept

variable {before between after : Tracking} {r r' r'' : Record}

theorem refl (tracking : Tracking) (r : Record) : r.MarksKept tracking tracking r :=
  ⟨rfl, rfl, rfl, fun _ => rfl, id, fun _ => id, id⟩

theorem trans (h : r.MarksKept before between r') (g : r'.MarksKept between after r'') : r.MarksKept before after r'' where
  serial := g.serial.trans h.serial
  birth := g.birth.trans h.birth
  job := g.job.trans h.job
  reject x := (g.reject (by rw [h.reject x]; exact x)).trans (h.reject x)
  further x := g.further (h.further x)
  fault f x := g.fault f (h.fault f x)
  sound x := g.sound (h.sound x)

/-- A change of what is no mark, and of nothing that a mark rests on but the place. -/
theorem of_same (tracking : Tracking) (serial : r'.serial = r.serial := by rfl) (birth : r'.birth = r.birth := by rfl)
    (job : r'.job = r.job := by rfl) (reject : r'.reject = r.reject := by rfl)
    (further : r'.further = r.further := by rfl) (results : r'.results = r.results := by rfl)
    (kind : r'.kind = r.kind := by rfl) (route : r'.route = r.route := by rfl)
    (place : r'.place = .inLine → r.place = .inLine := by exact id) : r.MarksKept tracking tracking r' where
  serial := serial
  birth := birth
  job := job
  reject _ := reject
  further := by rw [further]; exact id
  fault f := by rw [results]; exact id
  sound h := by
    refine ⟨fun f => ?_, ?_, ?_, fun x => ?_⟩
    · rw [results, reject]; exact h.fault f
    · rw [kind, reject]; exact h.splice
    · rw [route, reject]; exact h.diverted
    · intro untrusted
      rw [reject]
      refine h.lost x ?_
      simp only [Record.untrusted, Record.inLine, Bool.and_eq_true, beq_iff_eq, bne_iff_ne, kind] at untrusted ⊢
      exact ⟨place untrusted.1, untrusted.2⟩

theorem rejected_of_reject {o : Option Reject} (h : o.isSome = true) (why : Reject) : some (o.getD why) = o := by
  obtain ⟨x, rfl⟩ := Option.isSome_iff_exists.mp h
  rfl

/-- A reject of a record, whatever results and kind are set with it, keeps its marks, and leaves them sound whatever the tracking
state becomes (R31). -/
theorem rejecting (before after : Tracking) (why : Reject) (r : Record) (kind : Kind) (x : Results)
    (fault : ∀ f, r.results.get f = .fault → x.get f = .fault) :
    r.MarksKept before after
      { r with
        kind := kind, results := x, reject := some (r.reject.getD why), further := r.further || r.reject.isSome } :=
  ⟨rfl, rfl, rfl, fun h => rejected_of_reject h why, fun h => by dsimp only; rw [h, Bool.true_or], fault,
    fun _ => .of_reject rfl after⟩

theorem rejectWith (before after : Tracking) (why : Reject) (r : Record) :
    r.MarksKept before after (r.rejectWith why) := by
  rw [Record.rejectWith_eq]
  exact rejecting before after why r r.kind r.results fun _ => id

theorem rejectIf (c : Bool) (why : Reject) (r : Record) (tracking : Tracking) :
    r.MarksKept tracking tracking (r.rejectIf c why) := by
  cases c
  · exact refl tracking r
  · exact rejectWith tracking tracking why r

end Record.MarksKept

/-! ## The merge rule, case by case (R30) -/

section

variable {r : Record} {f : ResultField}

theorem Record.mergeResult_none (r : Record) (f : ResultField) : r.mergeResult f .none = r := by
  simp [Record.mergeResult, Result.takes]

theorem Record.mergeResult_done_over_fault (held : r.results.get f = .fault) : r.mergeResult f .done = r := by
  simp [Record.mergeResult, Result.takes, held]

theorem Result.takes_done {v : Result} (free : v ≠ .fault) : v.takes .done = true := by
  cases v
  · rfl
  · rfl
  · exact absurd rfl free

theorem Result.takes_fault (v : Result) : v.takes .fault = true := by cases v <;> rfl

theorem Record.mergeResult_done (free : r.results.get f ≠ .fault) :
    r.mergeResult f .done = { r with results := r.results.set f .done } := by
  simp only [Record.mergeResult, Result.takes_done free, if_true]
  rfl

theorem Results.set_get (x : Results) (f : ResultField) : x.set f (x.get f) = x := by
  cases f <;> rfl

theorem Record.mergeResult_fault_again (held : r.results.get f = .fault) : r.mergeResult f .fault = r := by
  have same : r.results.set f .fault = r.results := by rw [← held, Results.set_get]
  simp [Record.mergeResult, Result.takes, held, same]

theorem Record.mergeResult_fault (free : r.results.get f ≠ .fault) :
    r.mergeResult f .fault = { r with
      results := r.results.set f .fault
      reject := some (r.reject.getD (.fault f))
      further := r.further || r.reject.isSome } := by
  have changed : (Result.fault == .fault && r.results.get f != .fault) = true := by simp [free]
  simp only [Record.mergeResult, Result.takes_fault, changed, if_true, Record.rejectIf_true]
  exact Record.rejectWith_eq _ _

end

/-- The merge rule keeps the marks: a FAULT is never overwritten, and a new one rejects (R30). -/
theorem Record.MarksKept.mergeResult (f : ResultField) (v : Result) (r : Record) (tracking : Tracking) :
    r.MarksKept tracking tracking (r.mergeResult f v) := by
  have kept : ∀ (v : Result), r.results.get f ≠ .fault → ∀ g, r.results.get g = .fault →
      (r.results.set f v).get g = .fault := fun v free g h => by
    have apart : g ≠ f := fun e => free (e ▸ h)
    rw [Results.get_set, if_neg apart, h]
  cases v with
  | none => rw [Record.mergeResult_none]; exact .refl tracking r
  | done =>
    by_cases held : r.results.get f = .fault
    · rw [Record.mergeResult_done_over_fault held]
      exact .refl tracking r
    · have held_before : ∀ g, (r.results.set f .done).get g = .fault → r.results.get g = .fault := fun g => by
        rw [Results.get_set]
        split
        · intro h; cases h
        · exact id
      rw [Record.mergeResult_done held]
      exact ⟨rfl, rfl, rfl, fun _ => rfl, id, kept .done held,
        fun h => ⟨fun g x => h.fault g (held_before g x), h.splice, h.diverted, h.lost⟩⟩
  | fault =>
    by_cases held : r.results.get f = .fault
    · rw [Record.mergeResult_fault_again held]
      exact .refl tracking r
    · rw [Record.mergeResult_fault held]
      exact .rejecting tracking tracking _ r r.kind _ (kept .fault held)

/-! ## The marks of a table -/

/-- From `t` to `u` identities are used on, and each record of `u` stood in its slot before, with its marks kept, or is new
and sound. -/
structure Ttb.MarksKept (t u : Ttb) : Prop where
  births : t.births ≤ u.births
  slot : ∀ k r', u.slots.get k = some r' →
    (∃ r, t.slots.get k = some r ∧ r.MarksKept t.tracking u.tracking r') ∨ (t.births ≤ r'.birth ∧ r'.Sound u.tracking)

namespace Ttb.MarksKept

variable {t u v : Ttb}

theorem refl (t : Ttb) : t.MarksKept t := ⟨le_refl _, fun _ r' h => .inl ⟨r', h, .refl _ r'⟩⟩

theorem trans (h : t.MarksKept u) (g : u.MarksKept v) : t.MarksKept v where
  births := h.births.trans g.births
  slot k r'' h'' := by
    rcases g.slot k r'' h'' with ⟨r', h', kept⟩ | ⟨new, sound⟩
    · rcases h.slot k r' h' with ⟨r, hr, kept'⟩ | ⟨new, sound⟩
      · exact .inl ⟨r, hr, kept'.trans kept⟩
      · exact .inr ⟨by rw [kept.birth]; exact new, kept.sound sound⟩
    · exact .inr ⟨h.births.trans new, sound⟩

/-- A change of records in their slots that keeps the marks of each. -/
theorem of_map (f : Fin 64 → Record → Record) (births : u.births = t.births)
    (slots : ∀ k, u.slots.get k = (t.slots.get k).map (f k))
    (kept : ∀ k r, t.slots.get k = some r → r.MarksKept t.tracking u.tracking (f k r)) : t.MarksKept u where
  births := le_of_eq births.symm
  slot k r' h := by
    rw [slots, Option.map_eq_some_iff] at h
    obtain ⟨r, hr, rfl⟩ := h
    exact .inl ⟨r, hr, kept k r hr⟩

theorem write (t : Ttb) (x : Word) (f : Record → Record)
    (kept : ∀ r, t.lookup x = some r → r.MarksKept t.tracking t.tracking (f r)) : t.MarksKept (t.write x f) := by
  have frame := t.write_frame x f
  refine of_map _ (by rw [frame]) (Ttb.write_get t x f) fun k r hr => ?_
  rw [show (t.write x f).tracking = t.tracking by rw [frame]]
  split
  · next own =>
    obtain ⟨rfl, serial⟩ := own
    exact kept r ((Ttb.lookup_eq_some t x r).mpr ⟨hr, serial⟩)
  · exact .refl _ r

theorem writeHeld (t : Ttb) (h : Held) (f : Record → Record) (kept : ∀ r : Record, r.MarksKept t.tracking t.tracking (f r)) :
    t.MarksKept (t.writeHeld h f) := by
  rw [Ttb.writeHeld_eq]
  split
  · exact write t h.serial f fun r _ => kept r
  · exact refl t

/-- Marked records stay marked. -/
theorem marked (h : t.MarksKept u) (ok : t.Marked) : u.Marked := by
  rw [Ttb.marked_iff] at ok ⊢
  intro k r' hr'
  rcases h.slot k r' hr' with ⟨r, hr, kept⟩ | ⟨-, sound⟩
  · exact kept.sound (ok k r hr)
  · exact sound

/-- A record that is still the same one has its marks. -/
theorem lookup (h : t.MarksKept u) {x : Word} {r r' : Record} (found : t.lookup x = some r) (older : r.birth < t.births)
    (found' : u.lookup x = some r') (same : r'.birth = r.birth) : r.MarksKept t.tracking u.tracking r' := by
  have slot := ((Ttb.lookup_eq_some t x r).mp found).1
  rcases h.slot _ r' ((Ttb.lookup_eq_some u x r').mp found').1 with ⟨r₀, hr₀, kept⟩ | ⟨new, -⟩
  · rw [slot, Option.some.injEq] at hr₀
    exact hr₀ ▸ kept
  · omega

end Ttb.MarksKept

/-! ## Both together: work that neither moves nor counts records -/

/-- From `t` to `u` the records keep their standing and their marks. -/
structure Ttb.Works (t u : Ttb) : Prop where
  stands : t.Stands u
  marks : t.MarksKept u

namespace Ttb.Stands

variable {t u v : Ttb}

theorem refl (t : Ttb) : t.Stands t := ⟨rfl, rfl, rfl, rfl, fun _ => rfl⟩

theorem trans (h : t.Stands u) (g : u.Stands v) : t.Stands v :=
  ⟨g.l.trans h.l, g.kc.trans h.kc, g.advances.trans h.advances, g.births.trans h.births,
    fun k => (g.slots k).trans (h.slots k)⟩

/-- A change of records in their slots that keeps the standing of each. -/
theorem of_map (f : Fin 64 → Record → Record) (tracking : Tracking)
    (frame : u = { t with slots := u.slots, tracking := tracking })
    (slots : ∀ k, u.slots.get k = (t.slots.get k).map (f k)) (kept : ∀ k r, (f k r).standing = r.standing) :
    t.Stands u := by
  refine ⟨by rw [frame], by rw [frame], by rw [frame], by rw [frame], fun k => ?_⟩
  rw [slots, Option.map_map]
  exact congrArg (fun g => (t.slots.get k).map g) (funext fun r => kept k r)

theorem write (t : Ttb) (x : Word) (f : Record → Record) (kept : ∀ r, (f r).standing = r.standing) :
    t.Stands (t.write x f) :=
  of_map _ t.tracking (Ttb.write_frame t x f) (Ttb.write_get t x f) fun k r => by
    split
    · exact kept r
    · rfl

theorem writeHeld (t : Ttb) (h : Held) (f : Record → Record) (kept : ∀ r, (f r).standing = r.standing) :
    t.Stands (t.writeHeld h f) := by
  rw [Ttb.writeHeld_eq]
  split
  · exact write t h.serial f kept
  · exact refl t

end Ttb.Stands

namespace Ttb.Works

variable {t u v : Ttb}

theorem refl (t : Ttb) : t.Works t := ⟨.refl t, .refl t⟩

theorem of_eq (h : u = t) : t.Works u := h ▸ refl t

theorem trans (h : t.Works u) (g : u.Works v) : t.Works v := ⟨h.stands.trans g.stands, h.marks.trans g.marks⟩

theorem write (t : Ttb) (x : Word) (f : Record → Record) (standing : ∀ r, (f r).standing = r.standing)
    (marks : ∀ r, t.lookup x = some r → r.MarksKept t.tracking t.tracking (f r)) : t.Works (t.write x f) :=
  ⟨.write t x f standing, .write t x f marks⟩

/-- A change of every record, perhaps with the tracking state. -/
theorem mapRecords (t : Ttb) (tracking : Tracking) (f : Record → Record) (standing : ∀ r, (f r).standing = r.standing)
    (marks : ∀ r : Record, r.MarksKept t.tracking tracking (f r)) : t.Works { t.mapRecords f with tracking := tracking } where
  stands := .of_map (fun _ => f) tracking rfl (Ttb.mapRecords_get t f) fun _ => standing
  marks := .of_map (fun _ => f) rfl (Ttb.mapRecords_get t f) fun _ r _ => marks r

/-- Work over a list, each piece of which keeps standing and marks. -/
theorem foldl {α : Type} (f : State → α → State) (h : ∀ (s : State) k, s.ttb.Works (f s k).ttb) (ks : List α) :
    ∀ s : State, s.ttb.Works (ks.foldl f s).ttb := by
  induction ks with
  | nil => exact fun s => refl s.ttb
  | cons k rest ih => exact fun s => (h s k).trans (ih (f s k))

end Ttb.Works

/-- Batch ends touch neither standing nor marks. -/
theorem Ttb.Ended.works {t u : Ttb} (h : t.Ended u) : t.Works u := by
  have record : ∀ r r' : Record, r'.unended = r.unended →
      r'.standing = r.standing ∧ r.MarksKept t.tracking t.tracking r' := fun r r' same => by
    obtain ⟨⟩ := r
    obtain ⟨⟩ := r'
    simp only [Record.unended, Record.mk.injEq] at same
    obtain ⟨rfl, rfl, rfl, rfl, rfl, rfl, rfl, rfl, rfl, rfl, rfl, rfl, -, rfl⟩ := same
    exact ⟨rfl, .of_same _⟩
  refine ⟨⟨by rw [h.rest], by rw [h.rest], by rw [h.rest], by rw [h.rest], fun k => ?_⟩,
    ⟨by rw [h.rest], fun k r' hr' => .inl ?_⟩⟩
  · have slot := h.slots k
    cases hu : u.slots.get k with
    | none =>
      rw [hu] at slot
      rw [Option.map_eq_none_iff.mp slot.symm]
    | some r' =>
      rw [hu, Option.map_some] at slot
      obtain ⟨r, hr, same⟩ := Option.map_eq_some_iff.mp slot.symm
      rw [hr, Option.map_some, Option.map_some, (record r r' same.symm).1]
  · have slot := h.slots k
    rw [hr', Option.map_some] at slot
    obtain ⟨r, hr, same⟩ := Option.map_eq_some_iff.mp slot.symm
    exact ⟨r, hr, by rw [show u.tracking = t.tracking by rw [h.rest]]; exact (record r r' same.symm).2⟩

end Sys2Proof.Machine

/-! PROOFS. What each operation does to the standing and to the marks of the records, up to the rows of the table:
RecordMarksStay (O23) and StepKeepsMarks (O58). -/

namespace Sys2Proof.Machine

/-! ## Rejects, stamps and written fields -/

@[simp] theorem Record.rejectIf_standing (c : Bool) (why : Reject) (r : Record) :
    (r.rejectIf c why).standing = r.standing := by
  rw [Record.rejectIf_frame]
  rfl

@[simp] theorem Record.mergeResult_standing (f : ResultField) (v : Result) (r : Record) :
    (r.mergeResult f v).standing = r.standing := by
  rw [Record.mergeResult_frame]
  rfl

@[simp] theorem Record.stampWith_standing (st : Stamp) (r : Record) : (r.stampWith st).standing = r.standing := by
  rw [Record.stampWith_frame]
  rfl

@[simp] theorem Record.unstamp_standing (st : Stamp) (r : Record) : (r.unstamp st).standing = r.standing := by
  rw [Record.unstamp_frame]
  rfl

/-- A route keeps the marks if DIVERTED is written on a rejected record alone. -/
theorem Record.MarksKept.route (r : Record) (v : Route) (tracking : Tracking)
    (diverts : v = .diverted → r.reject.isSome = true) : r.MarksKept tracking tracking { r with route := v } :=
  ⟨rfl, rfl, rfl, fun _ => rfl, id, fun _ => id, fun h => ⟨h.fault, h.splice, diverts, h.lost⟩⟩

/-- The reversal of a stamp keeps the marks: it may reject, and sends the route back to STREAM (R98). -/
theorem Record.MarksKept.unstamp (st : Stamp) (r : Record) (tracking : Tracking) :
    r.MarksKept tracking tracking (r.unstamp st) := by
  cases st with
  | result f => exact .mergeResult f .fault r tracking
  | route v =>
    simp only [Record.unstamp]
    split
    · exact .route r .stream tracking fun h => Route.noConfusion h
    · exact .refl tracking r

/-- The stamp of a gate that passes keeps the marks: DIVERTED is stamped by the gate REJECTED alone (Table 5-2). -/
theorem Record.MarksKept.stampOnPass {c : ChanConfig} {st : Stamp} (stamp : c.stampOnPass = some st) {r : Record}
    (passes : c.gate.passes (some r) = true) (tracking : Tracking) : r.MarksKept tracking tracking (r.stampWith st) := by
  cases st with
  | result f => exact .mergeResult f .done r tracking
  | route v =>
    refine .route r v tracking fun diverts => ?_
    subst diverts
    unfold ChanConfig.stampOnPass at stamp
    cases gate : c.gate with
    | rejected =>
      rw [gate] at passes
      exact (Bool.and_eq_true_iff.mp passes).2
    | _ => simp [gate] at stamp

/-! ## Channels -/

theorem State.onEvent_works (s : State) (k : ChanNum) (l : Latch) (x : Count) : s.ttb.Works (s.onEvent k l x).ttb := by
  unfold State.onEvent
  dsimp only
  split
  · next fires =>
    have passes := (Bool.and_eq_true_iff.mp fires).2
    cases stamp : (s.chans.get k).config.stampOnPass with
    | none => exact .refl _
    | some st => exact .write s.ttb _ _ (Record.stampWith_standing st) fun r found => .stampOnPass stamp (found ▸ passes) _
  · exact .of_eq (State.arm_ttb _ k x)

theorem State.pointEvent_works (x : Count) (s : State) (k : ChanNum) : s.ttb.Works (s.pointEvent x k).ttb := by
  unfold State.pointEvent
  split
  · exact s.onEvent_works k _ x
  · exact .of_eq (State.endPulse_ttb s k _ x)
  · exact .refl _

theorem State.runPoints_works (s : State) (x : Count) : s.ttb.Works (s.runPoints x).ttb := by
  unfold State.runPoints
  split
  · exact Ttb.Works.foldl _ (State.pointEvent_works x) _ s
  · exact .refl _

theorem State.runOffPoints_works (s : State) (x : Count) : s.ttb.Works (s.runOffPoints x).ttb := by
  unfold State.runOffPoints
  dsimp only
  split
  · exact Ttb.Works.foldl _ (State.pointEvent_works x) _ s
  · exact .refl _

theorem Ttb.unstamp_works (t : Ttb) (pulse : Pulse) : t.Works (t.unstamp pulse) := by
  unfold Ttb.unstamp
  split
  · exact .refl t
  · next st _ => exact ⟨.writeHeld t _ _ (Record.unstamp_standing st), .writeHeld t _ _ fun r => .unstamp st r _⟩

theorem State.cutPulse_works (after : ChanState) (s : State) (k : ChanNum) : s.ttb.Works (s.cutPulse after k).ttb := by
  unfold State.cutPulse
  split
  · exact .refl _
  · next pulse _ => exact (s.ttb.unstamp_works pulse).trans (.of_eq (State.applyPending_ttb _ k))

theorem State.beginInhibition_works (s : State) : s.ttb.Works s.beginInhibition.ttb :=
  Ttb.Works.foldl _ (State.cutPulse_works .waiting) s.cutOrder { s with chans := s.chans.map Channel.enterSpell }

theorem State.expire_ttb (s : State) (k : ChanNum) : (s.expire k).ttb = s.ttb := by
  unfold State.expire
  split
  · split
    · rfl
    · split
      · exact State.endPulse_ttb s k _ _
      · rfl
  · split <;> rfl
  · rfl

theorem State.disable_works (k : ChanNum) (s : State) : s.ttb.Works (s.disable k).ttb := by
  unfold State.disable
  split
  · exact .refl _
  · exact .refl _
  · exact .refl _
  · exact .refl _
  · exact s.cutPulse_works .disabled k
  · exact s.cutPulse_works .disabled k

theorem State.storeConfig_ttb (k : ChanNum) (c : ChanConfig) (s : State) : (s.storeConfig k c).ttb = s.ttb := by
  unfold State.storeConfig
  split
  · rw [State.settlePair_ttb]; rfl
  · rw [State.settlePair_ttb]; rfl
  · rw [State.arm_ttb, State.settlePair_ttb]; rfl
  · rw [State.settlePair_ttb]; rfl

theorem State.enable_ttb (k : ChanNum) (s : State) : (s.enable k).ttb = s.ttb := by
  unfold State.enable
  split
  · rw [State.arm_ttb]; rfl
  · rfl

/-! ## The line -/

theorem State.enterLost_works (s : State) : s.ttb.Works s.enterLost.ttb := by
  refine .mapRecords s.ttb .lost _ (fun r => Record.rejectIf_standing _ _ r) fun r => ?_
  cases h : r.untrusted with
  | true => exact .rejectWith _ _ .lost r
  | false => exact ⟨rfl, rfl, rfl, fun _ => rfl, id, fun _ => id, fun ok => ⟨ok.fault, ok.splice, ok.diverted,
      fun _ x => absurd (h.symm.trans x) Bool.noConfusion⟩⟩

theorem State.slipIf_works (s : State) (beyond : Bool) : s.ttb.Works (s.slipIf beyond).ttb := by
  cases beyond
  · exact .refl _
  · exact (s.raise .slip).enterLost_works

theorem State.purge_works (p : PortNum) (s : State) : s.ttb.Works (s.purge p).ttb := by
  refine .mapRecords s.ttb s.ttb.tracking _ (fun r => ?_) fun r => ?_
  · split <;> rfl
  · split
    · exact ⟨rfl, rfl, rfl, fun _ => rfl, id, fun _ => id, fun ok => ⟨ok.fault, fun h => Kind.noConfusion h, ok.diverted,
        fun _ x => absurd x (by simp [Record.untrusted])⟩⟩
    · exact .refl _ r

theorem State.rejectRange_works (p : PortNum) (a b : Nat) (s : State) : s.ttb.Works (s.rejectRange p a b).ttb := by
  unfold State.rejectRange
  split
  · exact .refl _
  · exact .mapRecords s.ttb s.ttb.tracking _ (fun r => Record.rejectIf_standing _ _ r) fun r => .rejectIf _ _ r _

theorem Ttb.resync_works (t : Ttb) : t.Works { t with tracking := .ready } where
  stands := ⟨rfl, rfl, rfl, rfl, fun _ => rfl⟩
  marks := ⟨le_refl _, fun _ r h => .inl ⟨r, h, ⟨rfl, rfl, rfl, fun _ => rfl, id, fun _ => id,
    fun ok => ⟨ok.fault, ok.splice, ok.diverted, fun x => Tracking.noConfusion x⟩⟩⟩⟩

/-! ## Record writes (R34, R60) -/

/-- A kind keeps the marks where it asks for no reject (R34). -/
theorem Record.MarksKept.kind (r : Record) (k : Kind) (tracking : Tracking) (splice : k ≠ .splice)
    (lost : tracking = .lost → k ≠ .void → r.kind ≠ .void) : r.MarksKept tracking tracking { r with kind := k } := by
  refine ⟨rfl, rfl, rfl, fun _ => rfl, id, fun _ => id, fun ok => ⟨ok.fault, fun h => absurd h splice, ok.diverted,
    fun x untrusted => ok.lost x ?_⟩⟩
  simp only [Record.untrusted, Record.inLine, Bool.and_eq_true, beq_iff_eq, bne_iff_ne] at untrusted ⊢
  exact ⟨untrusted.1, lost x untrusted.2⟩

theorem Record.MarksKept.kind_rejecting (r : Record) (k : Kind) (why : Reject) (tracking : Tracking) :
    r.MarksKept tracking tracking ({ r with kind := k }.rejectWith why) := by
  rw [Record.rejectWith_eq]
  exact .rejecting tracking tracking why r k r.results fun _ => id

/-- A kind write keeps the marks: SPLICE rejects, and so does a blank made of a VOID record while LOST (R34). -/
theorem Record.MarksKept.writeKind (tracking : Tracking) (k : Kind) (r : Record) :
    r.MarksKept tracking tracking (r.writeKind tracking k) := by
  by_cases splice : k = .splice
  · subst splice
    exact (Record.MarksKept.kind_rejecting r .splice .splice tracking).trans (.rejectIf _ _ _ tracking)
  · have eq : r.writeKind tracking k
        = { r with kind := k }.rejectIf (tracking == Tracking.lost && (r.kind == Kind.void && k != Kind.void)) .lost := by
      simp only [Record.writeKind, beq_false_of_ne splice, Record.rejectIf_false]
    rw [eq]
    cases made : tracking == Tracking.lost && (r.kind == Kind.void && k != Kind.void) with
    | true => exact .kind_rejecting r k .lost tracking
    | false =>
      refine .kind r k tracking splice fun lost blank void => ?_
      simp [lost, blank, void] at made

@[simp] theorem Record.writeKind_standing (tracking : Tracking) (k : Kind) (r : Record) :
    (r.writeKind tracking k).standing = r.standing := by
  simp only [Record.writeKind, Record.rejectIf_standing]
  rfl

/-- An entry that is applied keeps the standing and the marks of the record, whatever field it names. -/
theorem Entry.apply_keeps (p : PortNum) (tracking : Tracking) (belowKc : Bool) (e : Entry) (r : Record) :
    (e.apply p tracking belowKc r).1.standing = r.standing ∧
      r.MarksKept tracking tracking (e.apply p tracking belowKc r).1 := by
  cases e with
  | kind k =>
    cases belowKc
    · exact ⟨rfl, .refl _ r⟩
    · exact ⟨Record.writeKind_standing tracking k r, .writeKind tracking k r⟩
  | reject code => exact ⟨Record.rejectIf_standing true _ r, .rejectWith _ _ _ r⟩
  | result f v => exact ⟨Record.mergeResult_standing f v r, .mergeResult f v r tracking⟩
  | hold b => exact ⟨rfl, .of_same _⟩
  | note v => exact ⟨rfl, .of_same _⟩

theorem writeFields_keeps (p : PortNum) (mask : BitVec 10) (tracking : Tracking) (belowKc : Bool) (es : List Entry)
    (r : Record) : (writeFields p mask tracking belowKc es r).record.standing = r.standing ∧
      r.MarksKept tracking tracking (writeFields p mask tracking belowKc es r).record := by
  have fold : ∀ (es : List Entry) (w : Written),
      (es.foldl (Written.step p mask tracking belowKc) w).record.standing = w.record.standing ∧
        w.record.MarksKept tracking tracking (es.foldl (Written.step p mask tracking belowKc) w).record := by
    intro es
    induction es with
    | nil => exact fun w => ⟨rfl, .refl _ _⟩
    | cons e rest ih =>
      intro w
      obtain ⟨standing, marks⟩ := ih (w.step p mask tracking belowKc e)
      have first : (w.step p mask tracking belowKc e).record.standing = w.record.standing ∧
          w.record.MarksKept tracking tracking (w.step p mask tracking belowKc e).record := by
        unfold Written.step
        dsimp only
        split
        · exact e.apply_keeps p tracking belowKc w.record
        · exact ⟨rfl, .refl _ _⟩
      exact ⟨standing.trans first.1, first.2.trans marks⟩
  exact fold (inFieldOrder es) ⟨r, 0, 0⟩

/-- The table after a well-formed write: the fields applied to the record found. -/
theorem State.writeFound_ttb {p : PortNum} {code : Byte} {serial : Word} {r : Record} {entries : List RawEntry} {s : State}
    {es : List Entry} (found : s.ttb.lookup serial = some r) (named : namedEntries entries = some es) :
    (s.writeFound p code serial r entries).ttb = s.ttb.write serial fun r' => (writeFields p (s.ports.get p).mask
      s.ttb.tracking (decide (r.position s.phu.cycle < s.ttb.kc)) es r').record := by
  rw [← Ttb.write_congr s.ttb serial (f := fun _ => (writeFields p (s.ports.get p).mask
    s.ttb.tracking (decide (r.position s.phu.cycle < s.ttb.kc)) es r).record) fun r' found' => by
      rw [found, Option.some.injEq] at found'
      rw [found']]
  simp only [State.writeFound, named]
  rfl

theorem State.writeFound_works (p : PortNum) (code : Byte) (serial : Word) (r : Record) (entries : List RawEntry) (s : State)
    (found : s.ttb.lookup serial = some r) : s.ttb.Works (s.writeFound p code serial r entries).ttb := by
  cases named : namedEntries entries with
  | none => exact .of_eq (by simp only [State.writeFound, named]; rfl)
  | some es =>
    rw [State.writeFound_ttb found named]
    exact .write s.ttb serial _ (fun r' => (writeFields_keeps p _ _ _ es r').1) fun r' _ => (writeFields_keeps p _ _ _ es r').2

theorem State.writeReached_works (p : PortNum) (code : Byte) (reach : Reach) (entries : List RawEntry) (s : State) :
    s.ttb.Works (s.writeReached p code reach entries).ttb := by
  cases reach with
  | frozen => exact .refl _
  | fault f => exact .of_eq (by rw [State.writeReached, State.fault_frame])
  | serial x =>
    unfold State.writeReached
    dsimp only
    split
    · exact .refl _
    · next r found =>
      split
      · exact s.writeFound_works p code x r entries found
      · exact .refl _

/-! ## Batches -/

theorem State.forceClose_works (p : PortNum) (s : State) : s.ttb.Works (s.forceClose p).ttb := by
  unfold State.forceClose
  dsimp only
  split
  · exact .refl _
  · split
    · exact (s.placeBatchEnd_ended.trans (.of_eq (State.closeBatch_ttb _ _ _ _))).works
    · exact .refl _

/-! ## The advance (R23 to R26) -/

/-- A new record is a VOID one whose kind is written as the pins give it, so its marks are sound. -/
theorem Ttb.newRecord_sound (t : Ttb) (c : Word) (job : JobNum) (feed splice : Bool) :
    t.births ≤ (t.newRecord c job feed splice).birth ∧ (t.newRecord c job feed splice).Sound t.tracking := by
  let void : Record :=
    { serial := c, birth := t.births, place := .inLine, kind := .void, job := job,
      results := ⟨.none, .none, .none, .none, .none, .none⟩, reject := none, further := false, hold := false,
      route := .stream, cls := .uncounted, batch := none, batchEnd := false, note := 0 }
  have kept : void.MarksKept t.tracking t.tracking (t.newRecord c job feed splice) :=
    .writeKind t.tracking (kindOfPins feed splice) void
  have sound : void.Sound t.tracking :=
    ⟨fun f => by cases f <;> exact fun h => Result.noConfusion h, fun h => Kind.noConfusion h,
      fun h => Route.noConfusion h, fun _ h => absurd h Bool.false_ne_true⟩
  exact ⟨le_of_eq kept.birth.symm, kept.sound sound⟩

theorem Ttb.create_marks (t : Ttb) (c : Word) (job : JobNum) (feed splice : Bool) :
    t.MarksKept (t.create c job feed splice) where
  births := Nat.le_succ _
  slot k r' h := by
    have slots : (t.create c job feed splice).slots = t.slots.put (slotOf c) (some (t.newRecord c job feed splice)) := rfl
    rw [slots, Bank.get_put] at h
    split at h
    · rw [Option.some.injEq] at h
      exact .inr (h ▸ t.newRecord_sound c job feed splice)
    · exact .inl ⟨r', h, .refl _ r'⟩

theorem State.classify_marks (s : State) (r : Record) : s.ttb.MarksKept (s.classify r).ttb := by
  obtain ⟨number, ended⟩ := s.classify_ended r
  refine (Ttb.MarksKept.write s.ttb r.serial _ fun r' _ => ?_).trans ended.works.marks
  rw [Record.classed_frame]
  exact .of_same _

theorem State.handOff_marks (s : State) : s.ttb.MarksKept s.handOff.ttb := by
  unfold State.handOff
  split
  · exact .refl _
  · split
    · exact s.classify_marks _
    · exact .refl _

/-- The advance up to the departure: the cycle number moved, the record at L departed (R23, R24). -/
def State.departing (s : State) : State :=
  (s.modPhu fun u => { u with cycle := u.cycle + 1 }).modTable
    (Ttb.write (s.phu.cycle + 1 - BitVec.ofNat 16 s.ttb.l) Record.depart)

theorem State.handedOver_eq (s : State) : s.handedOver = s.departing.handOff := rfl

theorem State.departing_marks (s : State) : s.ttb.MarksKept s.departing.ttb :=
  .write s.ttb _ _ fun r _ => .of_same _ (place := fun h => Place.noConfusion h)

theorem State.advance_marks (s : State) (feed splice : Bool) : s.ttb.MarksKept (s.advance feed splice).ttb := by
  rw [State.advance_eq, State.handedOver_eq]
  exact (s.departing_marks.trans s.departing.handOff_marks).trans (Ttb.create_marks _ _ _ _ _)

/-! ## The rows of the table: work on the records, with one advance or none -/

/-- From `s` to `t` the records are worked on, and the line has advanced at most once. -/
inductive State.TableStep (s t : State) : Prop where
  | works (table : s.ttb.Works t.ttb) (cycle : t.phu.cycle = s.phu.cycle)
  | advances (u : State) (feed splice : Bool) (before : s.ttb.Works u.ttb) (cycle : u.phu.cycle = s.phu.cycle)
      (after : (u.advance feed splice).ttb.Works t.ttb) (next : t.phu.cycle = s.phu.cycle + 1)

theorem State.TableStep.same {s t : State} (table : t.ttb = s.ttb) (cycle : t.phu.cycle = s.phu.cycle) : s.TableStep t :=
  .works (.of_eq table) cycle

/-- Marks are kept through work and through an advance. -/
theorem State.TableStep.marks {s t : State} (h : s.TableStep t) : s.ttb.MarksKept t.ttb := by
  cases h with
  | works table _ => exact table.marks
  | advances u feed splice before _ after _ => exact (before.marks.trans (u.advance_marks feed splice)).trans after.marks

theorem State.countForward_table (s : State) (jumped feed splice : Bool) :
    s.TableStep (s.countForward jumped feed splice) := by
  by_cases inside : s.phu.mc + 1 < s.phu.p
  · rw [State.countForward_inside jumped feed splice inside]
    have work := (s.counted .forward jumped (s.phu.mc + 1)).runPoints_channelWork ⟨s.phu.cycle, s.phu.mc + 1⟩
    exact .works ((s.counted .forward jumped (s.phu.mc + 1)).runPoints_works _) (by rw [work.phu]; rfl)
  · by_cases phase : s.phu.phase = .unsynced
    · rw [State.countForward_wrap jumped feed splice inside phase]
      exact .same rfl rfl
    · have synced := PhaseState.synced_of_ne phase
      by_cases debt : s.phu.debt = 0
      · rw [State.countForward_advance jumped feed splice inside synced debt]
        obtain ⟨phu, -, -, -⟩ := (s.counted .forward jumped 0).advanceCount_phu feed splice
        obtain ⟨early, late, -, -, -, eq⟩ := (s.counted .forward jumped 0).advanceCount_eq feed splice _ rfl
        generalize (⟨_, 0⟩ : Count) = x at eq
        have first := Ttb.Works.foldl _ (State.pointEvent_works x) early (s.counted .forward jumped 0)
        have work := (s.counted .forward jumped 0).pointEvents_foldl_channelWork early x
        refine .advances (early.foldl (State.pointEvent x) (s.counted .forward jumped 0)).countMissing feed splice ?_ ?_ ?_ ?_
        · rw [State.countMissing_ttb]
          exact first
        · rw [State.countMissing_phu, work.phu]
          rfl
        · rw [eq]
          exact Ttb.Works.foldl _ (State.pointEvent_works x) late _
        · rw [phu]
          rfl
      · rw [State.countForward_repay jumped feed splice inside synced debt, State.repay_frame]
        exact .same (State.countMissing_ttb _) (by rw [State.countMissing_phu]; rfl)

theorem State.crossBackward_works (s : State) : s.ttb.Works s.crossBackward.ttb := by
  by_cases none : s.phu.debt = 0
  · rw [State.crossBackward_start none]
    exact State.beginInhibition_works (State.raise .reverse (s.modPhu fun u => { u with debt := 1 }))
  · by_cases more : s.phu.debt < 15
    · rw [State.crossBackward_more none more]
      exact .refl _
    · rw [State.crossBackward_overflow (by omega), State.endInhibition_ttb]
      exact State.enterLost_works (s.modPhu fun u => { u with debt := 0 })

theorem State.countBackward_table (s : State) (jumped : Bool) : s.TableStep (s.countBackward jumped) := by
  refine .works ?_ (s.countBackward_cycle jumped)
  by_cases h : s.phu.mc = 0
  · by_cases phase : s.phu.phase = .unsynced
    · rw [State.countBackward_wrap jumped h phase]
      exact .refl _
    · rw [State.countBackward_crossing jumped h (PhaseState.synced_of_ne phase)]
      exact (s.counted .backward jumped (s.phu.p - 1)).crossBackward_works
  · rw [State.countBackward_inside jumped h]
    exact (s.counted .backward jumped (s.phu.mc - 1)).runOffPoints_works _

theorem State.edgeTable_works (s : State) (beyond : Bool) : s.ttb.Works (s.edgeTable beyond) := by
  have works := s.slipIf_works beyond
  rwa [State.slipIf_ttb] at works

/-- After the edge is whole a correction leaves the records to the channels' events alone. -/
theorem State.correct_works (s : State) (feed splice : Bool) :
    (s.edgeWhole (decide (s.phu.distance < 0)) (decide ((s.phu.t : Int) < |s.phu.distance|)) feed splice).ttb.Works
      (s.correct feed splice).ttb := by
  rw [State.correct_eq]
  dsimp only
  split
  · exact State.runPoints_works _ _
  · exact .refl _

theorem State.correct_table (s : State) (feed splice : Bool) : s.TableStep (s.correct feed splice) := by
  have points := s.correct_works feed splice
  by_cases early : s.phu.distance < 0
  · rw [decide_eq_true early] at points
    by_cases debt : s.phu.debt = 0
    · rw [State.edgeWhole_advance _ feed splice debt] at points
      refine .advances (s.modPhu fun u => { u with mc := 0 }).countMissing feed splice ?_ ?_
        ((State.slipIf_works _ _).trans points) ?_
      · rw [State.countMissing_ttb]
        exact .refl _
      · rw [State.countMissing_phu]
        rfl
      · simp [State.correct_phu, early, debt]
    · refine .works (.trans ?_ points) (by simp [State.correct_phu, debt])
      rw [State.edgeWhole_repay_frame _ feed splice debt]
      exact s.edgeTable_works _
  · refine .works (.trans ?_ points) (by simp [State.correct_phu, early])
    rw [decide_eq_false early, State.edgeWhole_late_frame]
    exact s.edgeTable_works _

theorem State.index_table (s : State) (feed splice : Bool) : s.TableStep (s.index feed splice) := by
  by_cases forward : s.phu.lastDir = some .forward
  · by_cases phase : s.phu.phase = .unsynced
    · rw [State.index_unsynced feed splice forward phase]
      exact .same (by rw [State.synchronise_frame]) (by rw [State.synchronise_phu])
    · rw [State.index_synced feed splice forward (PhaseState.synced_of_ne phase)]
      exact s.correct_table feed splice
  · rw [State.index_ignored feed splice forward]
    exact .same rfl rfl

/-! ## The rows of the table: transactions on the bus -/

theorem Completes.and {o : Host.Outcome State Fault Refusal} {P Q : State → Prop} (h : Completes o P) (g : Completes o Q) :
    Completes o fun t => P t ∧ Q t := by
  obtain ⟨t, rfl, ht⟩ := h
  obtain ⟨t', e, ht'⟩ := g
  cases e
  exact ⟨t, rfl, ht, ht'⟩

theorem Completes.mono {o : Host.Outcome State Fault Refusal} {P Q : State → Prop} (h : Completes o P)
    (g : ∀ t, P t → Q t) : Completes o Q := by
  obtain ⟨t, e, ht⟩ := h
  exact ⟨t, e, g t ht⟩

theorem transact_works (p : PortNum) (body : State → State) (h : ∀ s : State, s.ttb.Works (body s).ttb) (s : State) :
    Completes (transact p body s) fun t => s.ttb.Works t.ttb := by
  by_cases init : s.bti = .init
  · rw [transact_init p body s init]
    exact completes_next (.refl _)
  · rw [transact_next p body s init]
    have done := h (s.openWrite p)
    rw [State.openWrite_ttb] at done
    exact completes_next done

theorem State.fault_ttb (s : State) (p : PortNum) (f : FaultRecord) : (s.fault p f).ttb = s.ttb := by
  rw [State.fault_frame]

/-- A command that needs a privilege works on the records as its body does, and leaves them where it is refused. -/
theorem transact_privileged_works (p : PortNum) (code : Byte) (allowed : State → Bool) (body : State → State)
    (h : ∀ s : State, s.ttb.Works (body s).ttb) (s : State) :
    Completes (transact p (fun s => s.privileged p code (allowed s) body) s) fun t => s.ttb.Works t.ttb := by
  refine transact_works p _ (fun s => ?_) s
  cases allowed s
  · exact .of_eq (s.fault_ttb p _)
  · exact h s

section

variable (p : PortNum) (s : State)

theorem State.readReached_ttb (code : Byte) (reach : Reach) : (s.readReached p code reach).ttb = s.ttb := by
  cases reach with
  | frozen => rfl
  | fault f => exact s.fault_ttb p f
  | serial x =>
    unfold State.readReached
    dsimp only
    split <;> rfl

theorem State.setPort_ttb (target privileges base length dirAccess : Byte) (mask : Word) :
    (s.setPort p target privileges base length dirAccess mask).ttb = s.ttb := by
  unfold State.setPort; split <;> rfl

theorem State.portReset_ttb (target : Byte) : (s.portReset p target).ttb = s.ttb := by
  unfold State.portReset
  split
  · rfl
  · split <;> rfl

theorem State.setChannel_ttb (channel : Byte) (raw : RawConfig) : (s.setChannel p channel raw).ttb = s.ttb := by
  unfold State.setChannel
  split
  · rfl
  · split
    · rfl
    · split
      · exact s.storeConfig_ttb _ _
      · rfl

theorem State.enableChannel_ttb (channel : Byte) : (s.enableChannel p channel).ttb = s.ttb := by
  unfold State.enableChannel
  split
  · rfl
  · split
    · rfl
    · exact s.enable_ttb _
    · rfl

theorem State.disableChannel_works (channel : Byte) : s.ttb.Works (s.disableChannel p channel).ttb := by
  unfold State.disableChannel
  split
  · exact .refl _
  · exact s.disable_works _

theorem State.setJob_ttb (slot : Byte) (order : BitVec 24) (size quota : Word) :
    (s.setJob p slot order size quota).ttb = s.ttb := by
  unfold State.setJob
  split
  · rfl
  · split
    · rfl
    · split <;> rfl

theorem State.setBatchSize_ttb (slot : Byte) (size : Word) : (s.setBatchSize p slot size).ttb = s.ttb := by
  unfold State.setBatchSize
  split
  · rfl
  · split <;> rfl

theorem State.switchJob_ttb (slot : Byte) : (s.switchJob p slot).ttb = s.ttb := by
  unfold State.switchJob
  split
  · rfl
  · split <;> rfl

theorem State.pop_ttb : (s.pop p).ttb = s.ttb := by
  unfold State.pop; split <;> rfl

/-- A field list that could not have come whole works on nothing (R174). -/
theorem State.writeOrShort_works (code : Byte) (reach : Reach) (entries : List RawEntry) :
    s.ttb.Works (if maxEntries < entries.length then s.answer p .short code []
      else s.writeReached p code reach entries).ttb := by
  split
  · exact .refl _
  · exact s.writeReached_works p code reach entries

end

/-- A transaction on the bus, but for SET_LINE, keeps the standing and the marks of the records. -/
theorem exec_onBus_works (s : State) (c : Instr) (bus : c.onBus = true) (other : ∀ p l kc counts t, c ≠ .setLine p l kc counts t) :
    Completes (exec c s) fun t => s.ttb.Works t.ttb := by
  cases c with
  | forwardCount jumped feed splice => exact absurd bus Bool.false_ne_true
  | backwardCount jumped => exact absurd bus Bool.false_ne_true
  | indexEdge feed splice => exact absurd bus Bool.false_ne_true
  | speedWindowEnd => exact absurd bus Bool.false_ne_true
  | powerOnReset pins => exact absurd bus Bool.false_ne_true
  | rst pins => exact absurd bus Bool.false_ne_true
  | initEnd => exact absurd bus Bool.false_ne_true
  | timerExpiry k => exact absurd bus Bool.false_ne_true
  | setLine p l kc counts t => exact absurd rfl (other p l kc counts t)
  | referenceCycleLatch address =>
    refine completes_next (.of_eq ?_)
    split
    · rfl
    · split <;> rfl
  | readTransaction address clocked =>
    refine completes_next (.of_eq ?_)
    split
    · rfl
    · split <;> rfl
  | unknownCmd p code =>
    show Completes (execUnknownCmd p code s) _
    exact transact_works p _ (fun _ => .of_eq (by rfl)) s
  | short p code =>
    show Completes (execShort p code s) _
    exact transact_works p _ (fun _ => .of_eq (by rfl)) s
  | readPhase p =>
    show Completes (execReadPhase p s) _
    exact transact_works p _ (fun _ => .of_eq (by rfl)) s
  | capture p =>
    show Completes (execCapture p s) _
    exact transact_works p _ (fun _ => .of_eq (by rfl)) s
  | readSnapshot p =>
    show Completes (execReadSnapshot p s) _
    exact transact_works p _ (fun s => .of_eq (by split <;> rfl)) s
  | purge p =>
    show Completes (execPurge p s) _
    exact transact_privileged_works p _ _ _ (State.purge_works p) s
  | rejectRange p a b =>
    show Completes (execRejectRange p a b s) _
    exact transact_privileged_works p _ _ _ (State.rejectRange_works p _ _) s
  | resync p =>
    show Completes (execResync p s) _
    exact transact_privileged_works p _ _ _ (fun s => s.ttb.resync_works) s
  | readLine p =>
    show Completes (execReadLine p s) _
    exact transact_works p _ (fun _ => .of_eq (by rfl)) s
  | readRec p index =>
    show Completes (execReadRec p index s) _
    exact transact_works p _ (fun s => .of_eq (s.readReached_ttb p _ _)) s
  | readRecSer p serial =>
    show Completes (execReadRecSer p serial s) _
    exact transact_works p _ (fun s => .of_eq (s.readReached_ttb p _ _)) s
  | readWindow p =>
    show Completes (execReadWindow p s) _
    refine transact_works p _ (fun s => .of_eq ?_) s
    dsimp only
    split
    · rfl
    · exact s.fault_ttb p _
  | writeRec p index entries =>
    show Completes (execWriteRec p index entries s) _
    exact transact_works p _ (fun s => s.writeOrShort_works p _ _ entries) s
  | writeRecSer p serial entries =>
    show Completes (execWriteRecSer p serial entries s) _
    exact transact_works p _ (fun s => s.writeOrShort_works p _ _ entries) s
  | setPort p target privileges base length dirAccess mask =>
    show Completes (execSetPort p target privileges base length dirAccess mask s) _
    exact transact_privileged_works p _ _ _ (fun s => .of_eq (s.setPort_ttb p _ _ _ _ _ _)) s
  | readPort p target =>
    show Completes (execReadPort p target s) _
    exact transact_works p _ (fun s => .of_eq (by split <;> rfl)) s
  | readFault p target =>
    show Completes (execReadFault p target s) _
    exact transact_works p _ (fun s => .of_eq (by split <;> rfl)) s
  | clearFault p =>
    show Completes (execClearFault p s) _
    exact transact_works p _ (fun _ => .of_eq (by rfl)) s
  | portReset p target =>
    show Completes (execPortReset p target s) _
    exact transact_privileged_works p _ _ _ (fun s => .of_eq (s.portReset_ttb p target)) s
  | setChannel p channel config =>
    show Completes (execSetChannel p channel config s) _
    exact transact_privileged_works p _ _ _ (fun s => .of_eq (s.setChannel_ttb p channel config)) s
  | enableChannel p channel =>
    show Completes (execEnableChannel p channel s) _
    exact transact_privileged_works p _ _ _ (fun s => .of_eq (s.enableChannel_ttb p channel)) s
  | disableChannel p channel =>
    show Completes (execDisableChannel p channel s) _
    exact transact_privileged_works p _ _ _ (fun s => s.disableChannel_works p channel) s
  | readChannel p channel =>
    show Completes (execReadChannel p channel s) _
    exact transact_works p _ (fun s => .of_eq (by split <;> rfl)) s
  | setJob p slot order size quota =>
    show Completes (execSetJob p slot order size quota s) _
    exact transact_privileged_works p _ _ _ (fun s => .of_eq (s.setJob_ttb p slot order size quota)) s
  | setBatchSize p slot size =>
    show Completes (execSetBatchSize p slot size s) _
    exact transact_privileged_works p _ _ _ (fun s => .of_eq (s.setBatchSize_ttb p slot size)) s
  | switchJob p slot =>
    show Completes (execSwitchJob p slot s) _
    exact transact_privileged_works p _ _ _ (fun s => .of_eq (s.switchJob_ttb p slot)) s
  | readJob p slot =>
    show Completes (execReadJob p slot s) _
    exact transact_works p _ (fun s => .of_eq (by split <;> rfl)) s
  | readOpen p =>
    show Completes (execReadOpen p s) _
    exact transact_works p _ (fun _ => .of_eq (by rfl)) s
  | closeBatch p =>
    show Completes (execCloseBatch p s) _
    exact transact_privileged_works p _ _ _ (State.forceClose_works p) s
  | readBatch p entry =>
    show Completes (execReadBatch p entry s) _
    exact transact_works p _ (fun s => .of_eq (by split <;> rfl)) s
  | popBatch p =>
    show Completes (execPopBatch p s) _
    exact transact_privileged_works p _ _ _ (fun s => .of_eq (s.pop_ttb p)) s
  | setEvents p events =>
    show Completes (execSetEvents p events s) _
    exact transact_works p _ (fun s => .of_eq (by split <;> rfl)) s
  | readEvents p =>
    show Completes (execReadEvents p s) _
    exact transact_works p _ (fun _ => .of_eq (by rfl)) s
  | clearEvents p events =>
    show Completes (execClearEvents p events s) _
    exact transact_works p _ (fun s => .of_eq (by split <;> rfl)) s

/-! ## SET_LINE and the resets, which empty the table -/

/-- What SET_LINE makes of the table: it leaves it, or sets the line anew with operands that stand in their ranges. -/
theorem exec_setLine_table (s : State) (p : PortNum) (l kc : Byte) (counts : Word) (t : Byte) :
    Completes (exec (.setLine p l kc counts t) s) fun u => u.ttb = s.ttb ∨
      (2 ≤ l.toNat ∧ l.toNat ≤ 48 ∧ 1 ≤ kc.toNat ∧ kc.toNat < l.toNat) ∧ u.ttb = s.ttb.setLine l.toNat kc.toNat := by
  show Completes (transact p _ s) _
  by_cases init : s.bti = .init
  · rw [transact_init _ _ s init]
    exact completes_next (.inl rfl)
  · rw [transact_next _ _ s init]
    refine completes_next ?_
    rw [← s.openWrite_ttb p]
    generalize s.openWrite p = s
    dsimp only
    cases s.hasSetup p with
    | false => exact .inl (s.fault_ttb p _)
    | true =>
      rw [State.privileged_allowed]
      by_cases operands : s.lineOperandsOk l.toNat kc.toNat counts.toNat = true
      · by_cases idle : s.lineIdle = true
        · rw [State.setLine_taken p t.toNat operands idle]
          obtain ⟨l2, l48, kc1, kcl, -, -, -⟩ := (s.lineOperandsOk_iff _ _ _).mp operands
          exact .inr ⟨⟨l2, l48, kc1, kcl⟩, s.takeLine_ttb _ _ _ counts.toNat⟩
        · rw [State.setLine_busy p t.toNat operands idle]
          exact .inl rfl
      · rw [State.setLine_range p t.toNat operands]
        exact .inl rfl

/-! ## Every row -/

/-- A row that is neither a reset nor SET_LINE works on the records, with one advance or none. -/
theorem exec_tableStep (s : State) (c : Instr) (reset : c.isReset = false)
    (other : ∀ p l kc counts t, c ≠ .setLine p l kc counts t) : Completes (exec c s) s.TableStep := by
  by_cases bus : c.onBus = true
  · obtain ⟨t, ht, works, ranges⟩ := (exec_onBus_works s c bus other).and (exec_onBus_keepsRanges s c bus)
    exact ⟨t, ht, .works works ranges.cycle⟩
  · cases c with
    | forwardCount jumped feed splice => exact completes_next (s.countForward_table jumped feed splice)
    | backwardCount jumped => exact completes_next (s.countBackward_table jumped)
    | indexEdge feed splice => exact completes_next (s.index_table feed splice)
    | powerOnReset pins => exact absurd reset Bool.noConfusion
    | rst pins => exact absurd reset Bool.noConfusion
    | speedWindowEnd => exact completes_next (.same rfl rfl)
    | initEnd =>
      refine completes_next ?_
      split <;> exact .same rfl rfl
    | timerExpiry k => exact completes_next (.same (s.expire_ttb k) (congrArg Phu.cycle (s.expire_channelWork k).phu))
    | _ => exact absurd rfl bus

theorem Ttb.setLine_marks (t : Ttb) (l kc : Nat) : t.MarksKept (t.setLine l kc) where
  births := le_refl _
  slot k r' h := by
    rw [show (t.setLine l kc).slots.get k = none from Bank.get_fill _ _] at h
    cases h

/-- Every row but a reset keeps the marks of the records that stay (R30, R31, R36). -/
theorem exec_marksKept (s : State) (c : Instr) (reset : c.isReset = false) :
    Completes (exec c s) fun t => s.ttb.MarksKept t.ttb := by
  by_cases line : ∃ p l kc counts t, c = .setLine p l kc counts t
  · obtain ⟨p, l, kc, counts, t, rfl⟩ := line
    refine (exec_setLine_table s p l kc counts t).mono fun u h => ?_
    rcases h with same | ⟨-, set⟩
    · exact (Ttb.Works.of_eq same).marks
    · rw [set]
      exact s.ttb.setLine_marks _ _
  · exact (exec_tableStep s c reset fun p l kc counts t h => line ⟨p, l, kc, counts, t, h⟩).mono fun _ h => h.marks

/-- Settles O23: a record found again under its serial with its identity is the one that stood there, with its marks kept. -/
theorem recordMarksStay : Obligations.RecordMarksStay := by
  intro s c x f reset older
  refine (exec_marksKept s c reset).mono fun t kept r found r' found' same => ?_
  have marks := kept.lookup found (older r found) found' same
  exact ⟨marks.reject, marks.further, marks.fault f, marks.job⟩

/-- What a step keeps if every row does and a CLK period touches nothing of it. -/
theorem step_keeps {P Q : State → Prop} (rows : ∀ (s : State) c, P s → Completes (exec c s) Q)
    (queue : ∀ (s : State) rest, P s → P { s with pending := rest }) (idle : ∀ s : State, P s → Q s.tick) (s : State)
    (h : P s) : Completes (step s) Q := by
  cases pending : s.pending with
  | nil => exact ⟨s.tick, by simp [step, pending], idle s h⟩
  | cons c rest =>
    rw [show step s = exec c { s with pending := rest } by simp [step, pending]]
    exact rows _ c (queue s rest h)

/-- Settles O58: every row keeps the marks or empties the table, and a CLK period touches no record. -/
theorem stepKeepsMarks : Obligations.StepKeepsMarks := by
  refine step_keeps (P := fun s => s.ttb.Marked) (fun s c ok => ?_) (fun _ _ ok => ok) fun _ ok => ok
  cases reset : c.isReset with
  | false => exact (exec_marksKept s c reset).mono fun _ kept => kept.marked ok
  | true =>
    cases c with
    | powerOnReset pins => exact completes_next Ttb.reset_marked
    | rst pins => exact completes_next Ttb.reset_marked
    | _ => exact absurd reset Bool.noConfusion

end Sys2Proof.Machine

/-! PROOFS. Where the records stand and which are counted, through an advance and through every step: StepKeepsTheTable
(O57). -/

namespace Sys2Proof.Machine

/-! ## Serials by their distance from the cycle number (R21) -/

/-- The serial `n` cycles back is the one at distance `n`. -/
theorem serial_at_iff (c x : Word) {n : Nat} (small : n < 65536) : x = c - BitVec.ofNat 16 n ↔ (c - x).toNat = n := by
  constructor
  · rintro rfl
    rw [sub_sub_cancel]
    exact Nat.mod_eq_of_lt small
  · rintro rfl
    rw [BitVec.ofNat_toNat, BitVec.setWidth_eq, sub_sub_cancel]

/-- One advance on, a distance is one more, unless it comes round. -/
theorem distance_next (c x : Word) (apart : (c - x).toNat < 65535) : (c + 1 - x).toNat = (c - x).toNat + 1 := by
  bv_omega

theorem serial_back_succ (c : Word) (n : Nat) : c + 1 - BitVec.ofNat 16 (n + 1) = c - BitVec.ofNat 16 n := by
  rw [show BitVec.ofNat 16 (n + 1) = BitVec.ofNat 16 n + 1 from BitVec.ofNat_add n 1]
  exact add_sub_add_right_eq_sub c _ 1

/-- The serials at L and at Kc are two. -/
theorem serial_l_ne_kc (c : Word) {l kc : Nat} (below : kc < l) (low : l ≤ 48) :
    c - BitVec.ofNat 16 l ≠ c - BitVec.ofNat 16 kc := by
  intro same
  have back := congrArg BitVec.toNat (sub_right_injective same)
  simp only [BitVec.toNat_ofNat] at back
  omega

/-- Serials fewer than 64 cycles apart have slots of their own (R19). -/
theorem slotOf_back_ne (c : Word) {n : Nat} (pos : 1 ≤ n) (near : n < 64) : slotOf (c - BitVec.ofNat 16 n) ≠ slotOf c := by
  intro same
  have slots := congrArg Fin.val same
  simp only [slotOf] at slots
  bv_omega

/-! ## The creation of a record (R26) -/

section

variable (t : Ttb) (c : Word) (job : JobNum) (feed splice : Bool)

theorem Ttb.create_lookup_new : (t.create c job feed splice).lookup c = some (t.newRecord c job feed splice) :=
  (Ttb.lookup_eq_some _ _ _).mpr ⟨Bank.get_put_same _ _ _, (t.newRecord_kept c job feed splice).1⟩

theorem Ttb.create_get_ne {k : Fin 64} (h : k ≠ slotOf c) : (t.create c job feed splice).slots.get k = t.slots.get k :=
  Bank.get_put_ne _ _ h

theorem Ttb.create_get_new : (t.create c job feed splice).slots.get (slotOf c) = some (t.newRecord c job feed splice) :=
  Bank.get_put_same _ _ _

theorem Ttb.create_lookup_ne {x : Word} (h : slotOf x ≠ slotOf c) : (t.create c job feed splice).lookup x = t.lookup x := by
  unfold Ttb.lookup
  rw [Ttb.create_get_ne t c job feed splice h]

/-- What stood in the new record's slot is found no more. -/
theorem Ttb.create_lookup_evicted {x : Word} (h : slotOf x = slotOf c) (other : x ≠ c) :
    (t.create c job feed splice).lookup x = none := by
  unfold Ttb.lookup
  rw [h, Ttb.create_get_new]
  exact if_neg fun e => other (e.symm.trans (t.newRecord_kept c job feed splice).1)

end

/-! ## The table of an advance, but for batch ends -/

/-- What the hand-off at Kc writes into the record there: an IN_LINE one is classified, by what it holds itself. -/
def Record.handedOff (number : Word) (r : Record) : Record := if r.place = .inLine then r.classed number r else r

theorem Record.handedOff_frame (number : Word) (r : Record) :
    r.handedOff number = { r with cls := (r.handedOff number).cls, batch := (r.handedOff number).batch } := by
  unfold Record.handedOff
  split
  · exact Record.classed_frame _ _ _
  · rfl

theorem Record.handedOff_inLine {r : Record} (h : r.place = .inLine) (number : Word) :
    r.handedOff number = r.classed number r := if_pos h

theorem Record.handedOff_departed {r : Record} (h : r.place ≠ .inLine) (number : Word) : r.handedOff number = r := if_neg h

/-- A write that leaves the record it finds as it is leaves the table. -/
theorem Ttb.write_id (t : Ttb) (x : Word) (f : Record → Record) (h : ∀ r, t.lookup x = some r → f r = r) :
    t.write x f = t := by
  have slots : (t.write x f).slots = t.slots := Bank.ext_get fun k => by
    rw [Ttb.write_congr t x h, Ttb.write_get]
    cases t.slots.get k <;> simp
  rw [Ttb.write_frame, slots]

/-- But for batch ends, the hand-off is one write at Kc. -/
theorem State.handOff_ended (s : State) : ∃ number,
    (s.ttb.write (s.phu.cycle - BitVec.ofNat 16 s.ttb.kc) (Record.handedOff number)).Ended s.handOff.ttb := by
  by_cases line : ∃ r, s.ttb.lookup (s.phu.cycle - BitVec.ofNat 16 s.ttb.kc) = some r ∧ r.place = .inLine
  · obtain ⟨r, found, line⟩ := line
    obtain ⟨number, ended⟩ := s.classify_ended r
    refine ⟨number, ?_⟩
    rw [State.handOff_of_found found line, ← Ttb.write_congr s.ttb _ (f := r.classed number)]
    · exact Ttb.lookup_serial found ▸ ended
    · intro r' found'
      obtain rfl : r = r' := Option.some.inj (found.symm.trans found')
      exact (Record.handedOff_inLine line number).symm
  · have departed : ∀ r, s.ttb.lookup (s.phu.cycle - BitVec.ofNat 16 s.ttb.kc) = some r → r.place ≠ .inLine :=
      fun r found h => line ⟨r, found, h⟩
    refine ⟨0, .of_eq ?_⟩
    rw [State.handOff_of_none departed, Ttb.write_id _ _ _ fun r found => Record.handedOff_departed (departed r found) 0]

/-- What an advance to the cycle `c` writes into a record that stays, with the open batch's number. -/
def Ttb.moved (t : Ttb) (c number : Word) (r : Record) : Record :=
  if r.serial = c - BitVec.ofNat 16 t.l then r.depart
  else if r.serial = c - BitVec.ofNat 16 t.kc then r.handedOff number
  else r

theorem State.departing_table (s : State) : s.departing.phu.cycle = s.phu.cycle + 1 ∧ s.departing.ttb.kc = s.ttb.kc ∧
    s.departing.ttb = s.ttb.write (s.phu.cycle + 1 - BitVec.ofNat 16 s.ttb.l) Record.depart := by
  refine ⟨rfl, ?_, rfl⟩
  show (s.ttb.write _ _).kc = _
  rw [Ttb.write_frame]

/-- An advance as the table sees it: two writes, batch ends, and the new record in its slot. -/
theorem State.advance_table (s : State) (feed splice : Bool) : ∃ (number : Word) (u : Ttb),
    ((s.ttb.write (s.phu.cycle + 1 - BitVec.ofNat 16 s.ttb.l) Record.depart).write
      (s.phu.cycle + 1 - BitVec.ofNat 16 s.ttb.kc) (Record.handedOff number)).Ended u ∧
    (s.advance feed splice).ttb = u.create (s.phu.cycle + 1) s.bfu.cutJob feed splice := by
  obtain ⟨cycle, kc, table⟩ := s.departing_table
  obtain ⟨number, ended⟩ := s.departing.handOff_ended
  rw [cycle, kc, table] at ended
  refine ⟨number, s.handedOver.ttb, ended, ?_⟩
  rw [State.advance_eq, s.handedOver_batchWork.phu, s.handedOver_batchWork.cutJob]
  rfl

/-! ## Seated records -/

/-- Where one record stands and how it is counted at a cycle: the clauses of `Ttb.Placed` and of `Ttb.Counted` about it. -/
structure Record.Seated (cycle : Word) (l kc births : Nat) (r : Record) : Prop where
  identity : r.birth < births
  position : r.place = .inLine → r.position cycle < l
  onLine : r.place = .inLine → (r.cls = .uncounted ↔ r.position cycle < kc)
  departed : r.place = .departed → r.cls ≠ .uncounted
  batch : r.batch = none ↔ r.cls = .uncounted ∨ r.cls = .voidSkip

/-- Where the records stand and which of them are counted. -/
structure Ttb.Seated (cycle : Word) (t : Ttb) : Prop where
  line : 2 ≤ t.l ∧ t.l ≤ 48
  counting : 1 ≤ t.kc ∧ t.kc < t.l
  slot : ∀ k r, t.slots.get k = some r → slotOf r.serial = k
  filled : ∀ n < t.l, (t.lookup (cycle - BitVec.ofNat 16 n)).any Record.inLine = decide (n < t.advances)
  records : ∀ k r, t.slots.get k = some r → r.Seated cycle t.l t.kc t.births

theorem Ttb.seated_iff (cycle : Word) (t : Ttb) : t.Seated cycle ↔ t.Placed cycle ∧ t.Counted cycle := by
  constructor
  · rintro ⟨line, counting, slot, filled, records⟩
    exact ⟨⟨line, counting, slot, fun k r h => (records k r h).position, filled, fun k r h => (records k r h).identity⟩,
      ⟨fun k r h => (records k r h).onLine, fun k r h => (records k r h).departed, fun k r h => (records k r h).batch⟩⟩
  · rintro ⟨placed, counted⟩
    exact ⟨placed.line, placed.counting, placed.slot, placed.filled, fun k r h =>
      ⟨placed.identity k r h, placed.position k r h, counted.onLine k r h, counted.departed k r h, counted.batch k r h⟩⟩

/-- A record of the same standing is seated as well. -/
theorem Record.Seated.of_standing {cycle : Word} {l kc births : Nat} {r r' : Record} (h : r.Seated cycle l kc births)
    (same : r'.standing = r.standing) : r'.Seated cycle l kc births := by
  obtain ⟨serial, birth, place, cls, batch⟩ := (Record.standing_eq_iff r r').mp same
  have position : r'.position cycle = r.position cycle := by rw [Record.position, serial, Record.position]
  constructor
  · rw [birth]; exact h.identity
  · rw [place, position]; exact h.position
  · rw [place, cls, position]; exact h.onLine
  · rw [place, cls]; exact h.departed
  · rw [batch, cls]; exact h.batch

/-- Is a record IN_LINE, by its standing? -/
theorem any_inLine_of_standing {a b : Option Record} (h : a.map Record.standing = b.map Record.standing) :
    a.any Record.inLine = b.any Record.inLine := by
  have by_standing : ∀ o : Option Record, o.any Record.inLine = (o.map Record.standing).any fun x => x.2.2.1 == .inLine :=
    fun o => by cases o <;> rfl
  rw [by_standing, by_standing, h]

theorem Ttb.Stands.lookup {t u : Ttb} (h : t.Stands u) (x : Word) :
    (u.lookup x).map Record.standing = (t.lookup x).map Record.standing := by
  have slot := h.slots (slotOf x)
  unfold Ttb.lookup
  cases hu : u.slots.get (slotOf x) with
  | none =>
    rw [hu] at slot
    rw [Option.map_eq_none_iff.mp slot.symm]
  | some r' =>
    rw [hu, Option.map_some] at slot
    obtain ⟨r, hr, same⟩ := Option.map_eq_some_iff.mp slot.symm
    have serial : r.serial = r'.serial := congrArg Prod.fst same
    rw [hr]
    dsimp only
    rw [serial]
    split
    · rw [Option.map_some, Option.map_some, same]
    · rfl

/-- Work that keeps the standing of the records leaves them seated. -/
theorem Ttb.Seated.of_stands {cycle : Word} {t u : Ttb} (ok : t.Seated cycle) (h : t.Stands u) : u.Seated cycle := by
  have before : ∀ k r', u.slots.get k = some r' → ∃ r, t.slots.get k = some r ∧ r'.standing = r.standing := by
    intro k r' hr'
    have slot := h.slots k
    rw [hr', Option.map_some] at slot
    obtain ⟨r, hr, same⟩ := Option.map_eq_some_iff.mp slot.symm
    exact ⟨r, hr, same.symm⟩
  refine ⟨by rw [h.l]; exact ok.line, by rw [h.l, h.kc]; exact ok.counting, fun k r' hr' => ?_, fun n hn => ?_,
    fun k r' hr' => ?_⟩
  · obtain ⟨r, hr, same⟩ := before k r' hr'
    rw [show r'.serial = r.serial from congrArg Prod.fst same]
    exact ok.slot k r hr
  · rw [h.l] at hn
    rw [h.advances, ← ok.filled n hn]
    exact any_inLine_of_standing (h.lookup _)
  · obtain ⟨r, hr, same⟩ := before k r' hr'
    rw [h.l, h.kc, h.births]
    exact (ok.records k r hr).of_standing same

/-! ## Seated records through an advance -/

/-- Moved by an advance, a seated record is seated at the next cycle: it departs at L, counted already, or is counted at Kc,
or stays counted as it was. -/
theorem Record.Seated.moved {cycle number : Word} {t : Ttb} {r : Record} (ok : t.Seated cycle)
    (h : r.Seated cycle t.l t.kc t.births) : (t.moved (cycle + 1) number r).Seated (cycle + 1) t.l t.kc (t.births + 1) := by
  have line := ok.line
  have counting := ok.counting
  have identity : r.birth < t.births + 1 := Nat.lt_succ_of_lt h.identity
  have at_l := serial_at_iff (cycle + 1) r.serial (n := t.l) (by omega)
  have at_kc := serial_at_iff (cycle + 1) r.serial (n := t.kc) (by omega)
  unfold Ttb.moved
  cases place : r.place with
  | departed =>
    have gone : r.place ≠ .inLine := by rw [place]; exact fun h => Place.noConfusion h
    have departed := h.departed place
    rw [Record.handedOff_departed gone, show r.depart = r by rw [Record.depart, ← place]]
    simp only [ite_self]
    exact ⟨identity, fun x => absurd x gone, fun x => absurd x gone, fun _ => departed, h.batch⟩
  | inLine =>
    have near := h.position place
    have counted := h.onLine place
    have next : (cycle + 1 - r.serial).toNat = r.position cycle + 1 := distance_next cycle r.serial (by
      have : (cycle - r.serial).toNat < t.l := near
      omega)
    rw [next] at at_l at_kc
    by_cases leaves : r.serial = cycle + 1 - BitVec.ofNat 16 t.l
    · have far : ¬ r.position cycle < t.kc := by have := at_l.mp leaves; omega
      rw [if_pos leaves]
      exact ⟨identity, fun x => Place.noConfusion x, fun x => Place.noConfusion x, fun _ x => far (counted.mp x), h.batch⟩
    · have stays : r.position cycle + 1 < t.l := by have := mt at_l.mpr leaves; omega
      rw [if_neg leaves]
      by_cases arrives : r.serial = cycle + 1 - BitVec.ofNat 16 t.kc
      · have here := at_kc.mp arrives
        obtain ⟨cls, skip, batch⟩ := r.classed_cls number r
        have uncounted : r.batch = none := h.batch.mpr (.inl (counted.mpr (by omega)))
        rw [if_pos arrives, Record.handedOff_inLine place, Record.classed_frame]
        refine ⟨identity, fun _ => ?_, fun _ => ⟨fun x => absurd x cls, fun x => ?_⟩, fun _ => cls, ?_⟩
        · exact lt_of_eq_of_lt next stays
        · exact absurd (lt_of_eq_of_lt next.symm x) (by omega)
        · dsimp only
          rw [batch, skip]
          by_cases void : r.kind = .void <;> simp [void, uncounted, cls]
      · have apart := mt at_kc.mpr arrives
        rw [if_neg arrives]
        refine ⟨identity, fun _ => lt_of_eq_of_lt next stays, fun _ => counted.trans ?_, fun x => ?_, h.batch⟩
        · show _ ↔ (cycle + 1 - r.serial).toNat < t.kc
          omega
        · exact Place.noConfusion (place.symm.trans x)

theorem Ttb.newRecord_seated {cycle : Word} {t : Ttb} (l : 2 ≤ t.l) (kc : 1 ≤ t.kc) (job : JobNum) (feed splice : Bool) :
    (t.newRecord cycle job feed splice).Seated cycle t.l t.kc (t.births + 1) := by
  have standing : (t.newRecord cycle job feed splice).standing = (cycle, t.births, .inLine, .uncounted, none) := by
    unfold Ttb.newRecord
    simp only [Record.rejectIf_standing]
    rfl
  obtain ⟨serial, birth, place, cls, batch⟩ : _ ∧ _ ∧ _ ∧ _ ∧ _ := by simpa [Record.standing] using standing
  have here : (t.newRecord cycle job feed splice).position cycle = 0 := by simp [Record.position, serial]
  refine ⟨by omega, fun _ => by omega, fun _ => ⟨fun _ => by omega, fun _ => cls⟩, fun x => ?_, by simp [batch, cls]⟩
  exact Place.noConfusion (place.symm.trans x)

theorem Ttb.moved_leaving {t : Ttb} {c : Word} {r : Record} (h : r.serial = c - BitVec.ofNat 16 t.l) (number : Word) :
    t.moved c number r = r.depart := if_pos h

theorem Ttb.moved_staying {t : Ttb} {c : Word} {r : Record} (h : r.serial ≠ c - BitVec.ofNat 16 t.l) (number : Word) :
    t.moved c number r = if r.serial = c - BitVec.ofNat 16 t.kc then r.handedOff number else r := if_neg h

theorem Ttb.moved_serial (t : Ttb) (c number : Word) (r : Record) : (t.moved c number r).serial = r.serial := by
  unfold Ttb.moved
  split
  · rfl
  · split
    · rw [Record.handedOff_frame]
    · rfl

/-- A record that does not leave the line keeps its place. -/
theorem Ttb.moved_inLine {t : Ttb} {c : Word} {r : Record} (h : r.serial ≠ c - BitVec.ofNat 16 t.l) (number : Word) :
    (t.moved c number r).inLine = r.inLine := by
  rw [Ttb.moved_staying h]
  split
  · rw [Record.handedOff_frame]
    rfl
  · rfl

/-- The record of a slot, through the writes of an advance. -/
theorem Ttb.Seated.moved_get {cycle : Word} {t : Ttb} (ok : t.Seated cycle) (c number : Word) (k : Fin 64) :
    ((t.write (c - BitVec.ofNat 16 t.l) Record.depart).write (c - BitVec.ofNat 16 t.kc) (Record.handedOff number)).slots.get k
      = (t.slots.get k).map (t.moved c number) := by
  have apart := serial_l_ne_kc c ok.counting.2 ok.line.2
  rw [Ttb.write_get, Ttb.write_get]
  cases hr : t.slots.get k with
  | none => rfl
  | some r =>
    have slot := ok.slot k r hr
    rw [Option.map_some, Option.map_some, Option.map_some, Option.some.injEq]
    by_cases leaves : r.serial = c - BitVec.ofNat 16 t.l
    · have departs : k = slotOf (c - BitVec.ofNat 16 t.l) ∧ r.serial = c - BitVec.ofNat 16 t.l :=
        ⟨by rw [← slot, leaves], leaves⟩
      rw [if_pos departs, Ttb.moved_leaving leaves]
      exact if_neg fun h => apart (leaves.symm.trans h.2)
    · have stays : ¬ (k = slotOf (c - BitVec.ofNat 16 t.l) ∧ r.serial = c - BitVec.ofNat 16 t.l) := fun h => leaves h.2
      rw [if_neg stays, Ttb.moved_staying leaves]
      by_cases arrives : r.serial = c - BitVec.ofNat 16 t.kc
      · rw [if_pos arrives]
        exact if_pos ⟨by rw [← slot, arrives], arrives⟩
      · rw [if_neg arrives]
        exact if_neg fun h => arrives h.2

/-- What a lookup finds, through the writes of an advance. -/
theorem Ttb.moved_lookup (t : Ttb) (c number x : Word) (apart : c - BitVec.ofNat 16 t.l ≠ c - BitVec.ofNat 16 t.kc) :
    ((t.write (c - BitVec.ofNat 16 t.l) Record.depart).write (c - BitVec.ofNat 16 t.kc) (Record.handedOff number)).lookup x
      = (t.lookup x).map (t.moved c number) := by
  rw [Ttb.lookup_write _ _ _ _ fun r => by rw [Record.handedOff_frame], Ttb.lookup_write _ _ _ Record.depart fun _ => rfl,
    Ttb.lookup_write _ _ _ Record.depart fun _ => rfl, if_neg (Ne.symm apart)]
  have found : ∀ (f : Record → Record), (∀ r : Record, r.serial = x → f r = t.moved c number r) →
      (t.lookup x).map f = (t.lookup x).map (t.moved c number) := fun f h =>
    Option.map_congr fun r hr => h r (Ttb.lookup_serial hr)
  by_cases arrives : x = c - BitVec.ofNat 16 t.kc
  · subst arrives
    rw [if_pos rfl]
    exact found _ fun r hr => by rw [Ttb.moved_staying (by rw [hr]; exact Ne.symm apart), if_pos hr]
  · rw [if_neg arrives]
    by_cases leaves : x = c - BitVec.ofNat 16 t.l
    · subst leaves
      rw [if_pos rfl]
      exact found _ fun r hr => (Ttb.moved_leaving hr number).symm
    · rw [if_neg leaves, ← found id fun r hr => by
        rw [Ttb.moved_staying (by rw [hr]; exact leaves), if_neg (by rw [hr]; exact arrives)]
        rfl]
      exact Option.map_id'.symm

/-- A table whose records are those of a seated one moved by an advance, and a new record, is seated at the next cycle. -/
theorem Ttb.Seated.create {cycle number : Word} {t u : Ttb} (ok : t.Seated cycle)
    (stands : ((t.write (cycle + 1 - BitVec.ofNat 16 t.l) Record.depart).write (cycle + 1 - BitVec.ofNat 16 t.kc)
      (Record.handedOff number)).Stands u) (job : JobNum) (feed splice : Bool) :
    (u.create (cycle + 1) job feed splice).Seated (cycle + 1) := by
  have line := ok.line
  have counting := ok.counting
  have frame : u.l = t.l ∧ u.kc = t.kc ∧ u.advances = t.advances ∧ u.births = t.births := by
    rw [stands.l, stands.kc, stands.advances, stands.births, Ttb.write_frame, Ttb.write_frame t]
    exact ⟨rfl, rfl, rfl, rfl⟩
  obtain ⟨l, kc, advances, births⟩ := frame
  have before : ∀ k r', u.slots.get k = some r' → ∃ r, t.slots.get k = some r ∧
      r'.standing = (t.moved (cycle + 1) number r).standing := by
    intro k r' hr'
    have slot := stands.slots k
    rw [hr', ok.moved_get, Option.map_some] at slot
    obtain ⟨r₁, h₁, same⟩ := Option.map_eq_some_iff.mp slot.symm
    obtain ⟨r, hr, rfl⟩ := Option.map_eq_some_iff.mp h₁
    exact ⟨r, hr, same.symm⟩
  have cases_slot : ∀ k r', (u.create (cycle + 1) job feed splice).slots.get k = some r' →
      (k = slotOf (cycle + 1) ∧ r' = u.newRecord (cycle + 1) job feed splice) ∨ u.slots.get k = some r' := by
    intro k r' hr'
    by_cases hk : k = slotOf (cycle + 1)
    · subst hk
      rw [Ttb.create_get_new] at hr'
      exact .inl ⟨rfl, (Option.some.inj hr').symm⟩
    · exact .inr (by rwa [Ttb.create_get_ne _ _ _ _ _ hk] at hr')
  refine ⟨by rw [← l] at line; exact line, by rw [← l, ← kc] at counting; exact counting, fun k r' hr' => ?_, fun n hn => ?_,
    fun k r' hr' => ?_⟩
  · rcases cases_slot k r' hr' with ⟨rfl, rfl⟩ | old
    · rw [(u.newRecord_kept (cycle + 1) job feed splice).1]
    · obtain ⟨r, hr, same⟩ := before k r' old
      rw [show r'.serial = _ from congrArg Prod.fst same]
      exact (congrArg slotOf (t.moved_serial _ _ r)).trans (ok.slot k r hr)
  · replace hn : n < t.l := lt_of_lt_of_eq hn l
    show _ = decide (n < u.advances + 1)
    cases n with
    | zero =>
      rw [show cycle + 1 - BitVec.ofNat 16 0 = cycle + 1 from sub_zero _, Ttb.create_lookup_new]
      rw [Option.any_some, Record.inLine, (u.newRecord_kept (cycle + 1) job feed splice).2, decide_eq_true (by omega)]
      rfl
    | succ n =>
      rw [Ttb.create_lookup_ne _ _ _ _ _ (slotOf_back_ne _ (by omega) (by omega)), any_inLine_of_standing (stands.lookup _),
        Ttb.moved_lookup _ _ _ _ (serial_l_ne_kc _ counting.2 line.2)]
      have stays : cycle + 1 - BitVec.ofNat 16 (n + 1) ≠ cycle + 1 - BitVec.ofNat 16 t.l :=
        Ne.symm (serial_l_ne_kc _ hn line.2)
      have places : ((t.lookup (cycle + 1 - BitVec.ofNat 16 (n + 1))).map (t.moved (cycle + 1) number)).any Record.inLine
          = (t.lookup (cycle + 1 - BitVec.ofNat 16 (n + 1))).any Record.inLine := by
        cases found : t.lookup (cycle + 1 - BitVec.ofNat 16 (n + 1)) with
        | none => rfl
        | some r => exact Ttb.moved_inLine (by rw [Ttb.lookup_serial found]; exact stays) number
      rw [places, serial_back_succ, ok.filled n (by omega), advances]
      simp only [Nat.add_lt_add_iff_right]
  · rcases cases_slot k r' hr' with ⟨rfl, rfl⟩ | old
    · exact u.newRecord_seated (by omega) (by omega) job feed splice
    · obtain ⟨r, hr, same⟩ := before k r' old
      show r'.Seated (cycle + 1) u.l u.kc (u.births + 1)
      rw [l, kc, births]
      exact ((ok.records k r hr).moved ok).of_standing same

/-- An advance leaves a seated table seated at the next cycle. -/
theorem State.advance_seated (s : State) (feed splice : Bool) (ok : s.ttb.Seated s.phu.cycle) :
    (s.advance feed splice).ttb.Seated (s.phu.cycle + 1) := by
  obtain ⟨number, u, ended, table⟩ := s.advance_table feed splice
  rw [table]
  exact ok.create ended.works.stands s.bfu.cutJob feed splice

theorem State.TableStep.seated {s t : State} (h : s.TableStep t) (ok : s.ttb.Seated s.phu.cycle) :
    t.ttb.Seated t.phu.cycle := by
  cases h with
  | works table cycle => rw [cycle]; exact ok.of_stands table.stands
  | advances u feed splice before cycle after next =>
    have advanced := u.advance_seated feed splice (by rw [cycle]; exact ok.of_stands before.stands)
    rw [next, ← cycle]
    exact advanced.of_stands after.stands

/-! ## Empty tables -/

theorem Ttb.seated_of_empty (t : Ttb) (cycle : Word) (line : 2 ≤ t.l ∧ t.l ≤ 48) (counting : 1 ≤ t.kc ∧ t.kc < t.l)
    (empty : ∀ k, t.slots.get k = none) (advances : t.advances = 0) : t.Seated cycle := by
  have nothing : ∀ k r, t.slots.get k ≠ some r := fun k r h => by
    rw [empty k] at h
    cases h
  refine ⟨line, counting, fun k r h => absurd h (nothing k r), fun n _ => ?_, fun k r h => absurd h (nothing k r)⟩
  have missing : t.lookup (cycle - BitVec.ofNat 16 n) = none := by simp [Ttb.lookup, empty]
  simp [missing, advances]

theorem exec_keeps_seated (s : State) (c : Instr) (ok : s.ttb.Seated s.phu.cycle) :
    Completes (exec c s) fun t => t.ttb.Seated t.phu.cycle := by
  by_cases line : ∃ p l kc counts t, c = .setLine p l kc counts t
  · obtain ⟨p, l, kc, counts, t, rfl⟩ := line
    refine ((exec_setLine_table s p l kc counts t).and (exec_onBus_keepsRanges s _ rfl)).mono fun u h => ?_
    obtain ⟨table, ranges⟩ := h
    rw [ranges.cycle]
    rcases table with same | ⟨⟨l2, l48, kc1, kcl⟩, set⟩
    · rw [same]
      exact ok
    · rw [set]
      exact Ttb.seated_of_empty _ _ ⟨l2, l48⟩ ⟨kc1, kcl⟩ (fun k => Bank.get_fill _ k) rfl
  · cases reset : c.isReset with
    | false => exact (exec_tableStep s c reset fun p l kc counts t h => line ⟨p, l, kc, counts, t, h⟩).mono fun _ h => h.seated ok
    | true =>
      have empty := (Ttb.seated_iff 0 Ttb.reset).mpr ⟨Ttb.reset_placed 0, Ttb.reset_counted 0⟩
      cases c with
      | powerOnReset pins => exact completes_next empty
      | rst pins => exact completes_next empty
      | _ => exact absurd reset Bool.noConfusion

/-- Settles O57: the records stay seated through work on them, through an advance and where the table is emptied, and a CLK
period touches none. -/
theorem stepKeepsTheTable : Obligations.StepKeepsTheTable := by
  intro s placed counted
  have kept := step_keeps (P := fun s => s.ttb.Seated s.phu.cycle) exec_keeps_seated (fun _ _ ok => ok) (fun _ ok => ok) s
    ((Ttb.seated_iff _ _).mpr ⟨placed, counted⟩)
  exact kept.mono fun t h => (Ttb.seated_iff _ _).mp h

end Sys2Proof.Machine

/-! PROOFS. The advance event whole: AdvanceMovesRecords (O20). -/

namespace Sys2Proof.Machine

/-! ## What an advance leaves and what it finds (R23 to R26) -/

theorem State.BatchWork.eq {s t : State} (h : s.BatchWork t) :
    t = { s with ttb := { s.ttb with slots := t.ttb.slots }, bfu := t.bfu, events := t.events } := by
  obtain ⟨phu, ports, chans, bti, straps, clock, sda, frees, pending, table, -, -⟩ := h
  rw [← table, ← phu, ← ports, ← chans, ← bti, ← straps, ← clock, ← sda, ← frees, ← pending]

/-- An advance touches the cycle number, the records, the batches and the events alone. -/
theorem State.advance_frame (s : State) (feed splice : Bool) :
    s.advance feed splice = { s with
      phu := { s.phu with cycle := s.phu.cycle + 1 }
      ttb := { s.ttb with slots := (s.advance feed splice).ttb.slots, births := s.ttb.births + 1,
                          advances := s.ttb.advances + 1, feed := feed, splice := splice }
      bfu := (s.advance feed splice).bfu, events := (s.advance feed splice).events } := by
  rw [State.advance_eq, s.handedOver_batchWork.eq]
  rfl

theorem State.advance_bfu (s : State) (feed splice : Bool) : (s.advance feed splice).bfu = s.departing.handOff.bfu := rfl

theorem State.advance_events (s : State) (feed splice : Bool) :
    (s.advance feed splice).events = s.departing.handOff.events := rfl

theorem State.advance_lookup_ne (s : State) (feed splice : Bool) {x : Word} (h : slotOf x ≠ slotOf (s.phu.cycle + 1)) :
    (s.advance feed splice).ttb.lookup x = s.departing.handOff.ttb.lookup x := by
  rw [← State.handedOver_eq, State.advance_eq, s.handedOver_batchWork.phu]
  exact Ttb.create_lookup_ne _ _ _ _ _ h

theorem State.advance_lookup_evicted (s : State) (feed splice : Bool) {x : Word} (h : slotOf x = slotOf (s.phu.cycle + 1))
    (other : x ≠ s.phu.cycle + 1) : (s.advance feed splice).ttb.lookup x = none := by
  rw [State.advance_eq, s.handedOver_batchWork.phu]
  exact Ttb.create_lookup_evicted _ _ _ _ _ h other

/-- The record an advance creates, as FEED, SPLICE, the tracking state and the cut job give it (R26). -/
theorem State.advance_lookup_new (s : State) (feed splice : Bool) :
    (s.advance feed splice).ttb.lookup (s.phu.cycle + 1)
      = some (s.ttb.newRecord (s.phu.cycle + 1) s.bfu.cutJob feed splice) := by
  have record : s.handedOver.ttb.newRecord (s.phu.cycle + 1) s.bfu.cutJob feed splice
      = s.ttb.newRecord (s.phu.cycle + 1) s.bfu.cutJob feed splice := by
    rw [s.handedOver_batchWork.table]
    rfl
  rw [State.advance_eq, s.handedOver_batchWork.phu, s.handedOver_batchWork.cutJob, ← record]
  exact Ttb.create_lookup_new _ _ _ _ _

/-- The new record by the pins and the tracking state (R26, R37). -/
theorem Ttb.newRecord_eq (t : Ttb) (c : Word) (job : JobNum) (feed splice : Bool) :
    t.newRecord c job feed splice =
      { serial := c, birth := t.births, place := .inLine,
        kind := if feed then (if splice then .splice else .blank) else .void, job := job,
        results := ⟨.none, .none, .none, .none, .none, .none⟩,
        reject := if feed then (if splice then some .splice else if t.tracking = .lost then some .lost else none)
          else none,
        further := feed && splice && t.tracking == .lost, hold := false, route := .stream, cls := .uncounted,
        batch := none, batchEnd := false, note := 0 } := by
  unfold Ttb.newRecord
  cases feed <;> cases splice <;> cases t.tracking <;> rfl

/-- A record that stays, but for its batch end: as the writes of the advance make it. -/
theorem State.advance_lookup_moved (s : State) (feed splice : Bool) (kcl : s.ttb.kc < s.ttb.l) (l48 : s.ttb.l ≤ 48) :
    ∃ number, ∀ x, slotOf x ≠ slotOf (s.phu.cycle + 1) →
      ((s.advance feed splice).ttb.lookup x).map Record.unended
        = (s.ttb.lookup x).map fun r => (s.ttb.moved (s.phu.cycle + 1) number r).unended := by
  obtain ⟨number, u, ended, table⟩ := s.advance_table feed splice
  refine ⟨number, fun x apart => ?_⟩
  rw [table, Ttb.create_lookup_ne _ _ _ _ _ apart, ended.lookup, Ttb.moved_lookup _ _ _ _ (serial_l_ne_kc _ kcl l48),
    Option.map_map]
  rfl

/-- The record arriving at Kc is found there once the one at L has departed, and no other is. -/
theorem State.departing_lookup_kc (s : State) (kcl : s.ttb.kc < s.ttb.l) (l48 : s.ttb.l ≤ 48) :
    s.departing.ttb.lookup (s.departing.phu.cycle - BitVec.ofNat 16 s.departing.ttb.kc)
      = s.ttb.lookup (s.phu.cycle + 1 - BitVec.ofNat 16 s.ttb.kc) := by
  obtain ⟨cycle, kc, table⟩ := s.departing_table
  rw [cycle, kc, table, Ttb.lookup_write _ _ _ Record.depart fun _ => rfl, if_neg (Ne.symm (serial_l_ne_kc _ kcl l48))]

theorem State.departing_handOff_found (s : State) (kcl : s.ttb.kc < s.ttb.l) (l48 : s.ttb.l ≤ 48) {r : Record}
    (found : s.ttb.lookup (s.phu.cycle + 1 - BitVec.ofNat 16 s.ttb.kc) = some r) (line : r.place = .inLine) :
    s.departing.handOff = s.departing.classify r :=
  State.handOff_of_found ((s.departing_lookup_kc kcl l48).trans found) line

theorem State.departing_handOff_none (s : State) (kcl : s.ttb.kc < s.ttb.l) (l48 : s.ttb.l ≤ 48)
    (none : ∀ r ∈ s.ttb.lookup (s.phu.cycle + 1 - BitVec.ofNat 16 s.ttb.kc), r.place ≠ .inLine) :
    s.departing.handOff = s.departing :=
  State.handOff_of_none (by rw [s.departing_lookup_kc kcl l48]; exact none)

/-- With no IN_LINE record at Kc, or a VOID one, nothing is counted (R127, R128). -/
theorem State.departing_handOff_uncounted (s : State) (kcl : s.ttb.kc < s.ttb.l) (l48 : s.ttb.l ≤ 48)
    (uncounted : (s.ttb.lookup (s.phu.cycle + 1 - BitVec.ofNat 16 s.ttb.kc)).any
      (fun r => r.place == .inLine && r.kind != .void) = false) :
    s.departing.handOff.bfu = s.bfu ∧ s.departing.handOff.events = s.events := by
  by_cases line : ∃ r, s.ttb.lookup (s.phu.cycle + 1 - BitVec.ofNat 16 s.ttb.kc) = some r ∧ r.place = .inLine
  · obtain ⟨r, found, line⟩ := line
    have void : r.kind = .void := by
      rw [found] at uncounted
      simpa [line] using uncounted
    rw [s.departing_handOff_found kcl l48 found line, State.classify, if_pos void]
    exact ⟨rfl, rfl⟩
  · rw [s.departing_handOff_none kcl l48 fun r found place => line ⟨r, found, place⟩]
    exact ⟨rfl, rfl⟩

/-- The record but for how it is counted and for its batch end. -/
def Record.uncountedPart (r : Record) : Record := { r with cls := .uncounted, batch := none, batchEnd := false }

theorem Record.handedOff_uncountedPart (number : Word) (r : Record) :
    (r.handedOff number).uncountedPart = r.uncountedPart := by
  rw [Record.handedOff_frame]
  rfl

/-- But for how it is counted, a record is moved by departing at L alone. -/
theorem Ttb.moved_uncountedPart (t : Ttb) (c number : Word) (r : Record) :
    (t.moved c number r).uncountedPart
      = Record.uncountedPart (if r.serial = c - BitVec.ofNat 16 t.l then { r with place := .departed } else r) := by
  unfold Ttb.moved
  split
  · rfl
  · split
    · exact r.handedOff_uncountedPart number
    · rfl

/-- Away from Kc a record is counted as it was. -/
theorem Ttb.moved_counted {t : Ttb} {c : Word} {r : Record} (h : r.serial ≠ c - BitVec.ofNat 16 t.kc) (number : Word) :
    (t.moved c number r).cls = r.cls ∧ (t.moved c number r).batch = r.batch := by
  unfold Ttb.moved
  rw [if_neg h]
  split <;> exact ⟨rfl, rfl⟩

/-- Settles O20: an advance is `State.departing`, the hand-off and the creation; what stays of a record is `Ttb.moved`. -/
theorem advanceMovesRecords : Obligations.AdvanceMovesRecords := by
  rintro s feed splice x c q e apart handed l48 kc1 kcl rfl hhanded rfl
  replace hhanded : handed = s.departing := hhanded
  subst hhanded
  obtain ⟨number, moved⟩ := s.advance_lookup_moved feed splice kcl l48
  have near : slotOf (s.phu.cycle + 1 - BitVec.ofNat 16 s.ttb.kc) ≠ slotOf (s.phu.cycle + 1) :=
    slotOf_back_ne _ kc1 (by omega)
  /- What a projection that batch ends do not touch finds. -/
  have project : ∀ {α : Type} (g : Record → α), (∀ r : Record, g r.unended = g r) → slotOf x ≠ slotOf (s.phu.cycle + 1) →
      ((s.advance feed splice).ttb.lookup x).map g
        = (s.ttb.lookup x).map fun r => g (s.ttb.moved (s.phu.cycle + 1) number r) := by
    intro α g hg away
    have seen := congrArg (Option.map g) (moved x away)
    simpa only [Option.map_map, Function.comp_def, hg] using seen
  refine ⟨rfl, rfl, s.advance_frame feed splice, fun none => ?_, ?_, fun other => ?_, ?_, fun same other => ?_,
    fun away => ?_, fun away notKc => ⟨?_, ?_⟩, ?_, fun r found line => ⟨?_, ?_, fun away => ?_⟩, fun none away => ?_⟩
  · exact s.departing_handOff_uncounted kcl l48 none
  · exact s.handedOver_batchWork.enables q
  · exact (s.advance_raises feed splice).only q e other
  · rw [State.advance_lookup_new, Ttb.newRecord_eq]
  · exact s.advance_lookup_evicted feed splice same other
  · refine (project Record.uncountedPart (fun _ => rfl) away).trans (Option.map_congr fun r found => ?_)
    rw [Ttb.moved_uncountedPart, Ttb.lookup_serial found]
    rfl
  · refine (project (fun r => r.cls) (fun _ => rfl) away).trans (Option.map_congr fun r found => ?_)
    exact (Ttb.moved_counted (by rw [Ttb.lookup_serial found]; exact notKc) number).1
  · refine (project (fun r => r.batch) (fun _ => rfl) away).trans (Option.map_congr fun r found => ?_)
    exact (Ttb.moved_counted (by rw [Ttb.lookup_serial found]; exact notKc) number).2
  · rintro rfl r found line r' found'
    have serial := Ttb.lookup_serial found
    have classed : s.ttb.moved (s.phu.cycle + 1) number r = r.classed number r := by
      rw [Ttb.moved_staying (by rw [serial]; exact Ne.symm (serial_l_ne_kc _ kcl l48)), if_pos serial,
        Record.handedOff_inLine line]
    have seen := project (fun r => r.cls) (fun _ => rfl) near
    rw [found, found', Option.map_some, Option.map_some, classed, Option.some.injEq] at seen
    rw [seen]
    exact ⟨(r.classed_cls number r).1, (r.classed_cls number r).2.1⟩
  · rw [State.advance_bfu, s.departing_handOff_found kcl l48 found line]
  · rw [State.advance_events, s.departing_handOff_found kcl l48 found line]
  · rw [State.advance_lookup_ne _ _ _ away, s.departing_handOff_found kcl l48 found line]
  · rw [State.advance_lookup_ne _ _ _ away, s.departing_handOff_none kcl l48 none]

end Sys2Proof.Machine

/-! PROOFS. The merge rule and the line commands: ResultMergeRule (O21), LostMarksTheLine (O22), PurgeMakesVoid (O24),
RejectRangeReaches (O25) and ResyncReturnsReady (O26). -/

namespace Sys2Proof.Machine

/-- Settles O21: the merge rule's equations, one for each value and for what the field holds. -/
theorem resultMergeRule : Obligations.ResultMergeRule := by
  intro r f g v
  refine ⟨?_, ?_, ?_, ?_, ?_, ?_, fun apart => ?_, ?_, ?_⟩
  · rintro rfl
    exact ⟨r.mergeResult_none f, by cases r.results.get f <;> rfl⟩
  · rintro rfl held
    exact ⟨Record.mergeResult_done_over_fault held, by rw [held]; rfl⟩
  · rintro rfl free
    exact ⟨Result.takes_done free, Record.mergeResult_done free⟩
  · rintro rfl held
    exact ⟨Result.takes_fault _, Record.mergeResult_fault_again held⟩
  · rintro rfl free
    exact ⟨Result.takes_fault _, Record.mergeResult_fault free⟩
  · rw [Results.get_set, if_pos rfl]
  · rw [Results.get_set, if_neg apart]
  · cases f <;> rfl
  · cases f <;> rfl

/-! ## Commands of a port with SETUP -/

theorem State.openWrite_addressed {s : State} {p : PortNum} (h : s.bti = .code p) : s.openWrite p = s := if_pos h

/-- A command that needs SETUP, of a port that holds it, outside INIT. -/
theorem transact_setup {s : State} {p : PortNum} (code : Byte) (body : State → State) (init : s.bti ≠ .init)
    (setup : (s.ports.get p).privileges.setup = true) :
    transact p (fun s => s.privileged p code (s.hasSetup p) body) s
      = .next { body (s.openWrite p) with bti := .idle } := by
  have holds : (s.openWrite p).hasSetup p = true := by rw [State.hasSetup, State.openWrite_privileges, setup]
  rw [transact_next _ _ _ init, holds]
  rfl

theorem bti_ne_init {s : State} {p : PortNum} (h : s.bti = .code p) : s.bti ≠ .init := fun e => Bti.noConfusion (h.symm.trans e)

theorem Ttb.countRecords_holding (t : Ttb) (f : Record → Bool) : t.countRecords f = t.holding f := t.countRecords_eq f

/-! ## The records that LOST, PURGE and REJECT_RANGE reach -/

theorem Record.untrusted_iff (r : Record) : r.untrusted = true ↔ r.place = .inLine ∧ r.kind ≠ .void := by
  simp [Record.untrusted, Record.inLine]

/-- A conditional reject, whole (R31). -/
theorem Record.rejectIf_eq (c : Bool) (why : Reject) (r : Record) : r.rejectIf c why =
    if c = true then { r with reject := some (r.reject.getD why), further := r.further || r.reject.isSome } else r := by
  cases c
  · rfl
  · exact Record.rejectWith_eq why r

/-- Settles O22. -/
theorem lostMarksTheLine : Obligations.LostMarksTheLine := by
  intro s x q e
  refine ⟨s.enterLost_frame, rfl, s.requested_enterLost q e, s.enterLost_enable q, ?_⟩
  rw [State.enterLost_lookup]
  congr 1
  funext r
  rw [Record.rejectIf_eq]
  simp only [Record.untrusted_iff]

theorem State.purges_iff (s : State) (r : Record) :
    s.purges r = true ↔ r.place = .inLine ∧ (s.phu.cycle - r.serial).toNat < s.ttb.kc := by
  rw [State.purges, Record.inLine, Record.position, Bool.and_eq_true, beq_iff_eq, decide_eq_true_eq]

/-- Settles O24: PURGE is one change of every record, on the state with the transaction open. -/
theorem purgeMakesVoid : Obligations.PurgeMakesVoid := by
  intro s p x init setup
  show Completes (transact p (fun s => s.privileged p Code.purge (s.hasSetup p) (State.purge p)) s) _
  rw [transact_setup _ _ init setup, ← s.openWrite_ttb p, ← s.openWrite_phu p]
  generalize s.openWrite p = u
  refine completes_next ⟨?_, ?_⟩
  · simp only [State.purge, Ttb.countRecords_holding]
    rfl
  · refine (Ttb.lookup_mapRecords u.ttb x _ fun r => ?_).trans (Option.map_congr fun r _ => ?_)
    · split <;> rfl
    · simp only [State.purges_iff]

theorem State.inRange_eq (s : State) (a b : Nat) :
    s.inRange a b = fun r => r.place == .inLine && r.kind != .void &&
      decide (min a (s.ttb.l - 1) ≤ (s.phu.cycle - r.serial).toNat) &&
      decide ((s.phu.cycle - r.serial).toNat ≤ min b (s.ttb.l - 1)) := rfl

/-- Settles O25: REJECT_RANGE refuses, or rejects the records `State.inRange` names, which are those reached. -/
theorem rejectRangeReaches : Obligations.RejectRangeReaches := by
  rintro s p a b x reached address setup hreached
  replace hreached : reached = s.inRange a.toNat b.toNat := hreached
  subst hreached
  have taken : exec (.rejectRange p a b) s = .next { s.rejectRange p a.toNat b.toNat with bti := .idle } := by
    show transact p (fun s => s.privileged p Code.rejectRange (s.hasSetup p) (State.rejectRange p a.toNat b.toNat)) s = _
    rw [transact_setup _ _ (bti_ne_init address) setup, State.openWrite_addressed address]
  rw [taken]
  refine ⟨fun above => ?_, fun ordered => completes_next ?_⟩
  · rw [State.rejectRange, if_pos above]
    rfl
  · rw [State.rejectRange, if_neg (Nat.not_lt.mpr ordered)]
    refine ⟨?_, ?_⟩
    · rw [Ttb.countRecords_holding]
      rfl
    · refine (Ttb.lookup_mapRecords s.ttb x _ fun r => Record.rejectIf_serial _ _ r).trans (Option.map_congr fun r _ => ?_)
      exact Record.rejectIf_eq _ .range r

/-- Settles O26. -/
theorem resyncReturnsReady : Obligations.ResyncReturnsReady := by
  intro s p init setup
  show transact p (fun s => s.privileged p Code.resync (s.hasSetup p) fun s =>
    (s.modTable fun t => { t with tracking := .ready }).answer p .ok Code.resync []) s = _
  rw [transact_setup _ _ init setup, ← s.openWrite_ttb p]
  rfl

end Sys2Proof.Machine

/-! PROOFS. What a channel does at its points and when it is disabled: OnEventFiresOrSkips (O40) and DisableCutsThePulse
(O42). -/

namespace Sys2Proof.Machine

/-! ## The odd partner of an even channel (R102) -/

theorem pair_iff (k j : ChanNum) : (isEven k = true ∧ j = partnerOf k) ↔ k.val % 2 = 0 ∧ j.val = k.val + 1 := by
  simp only [isEven, partnerOf, beq_iff_eq, Fin.ext_iff]
  omega

/-- What a staged configuration of channel `k` makes of channel `j`, whose state was `before`: the odd partner of an even
channel follows it, and any other is left. -/
theorem Channel.follows_staged {k j : ChanNum} {staged : Option ChanConfig} {before after : Channel} (config : ChanConfig)
    (h : after = if isEven k = true ∧ j = partnerOf k then before.settledBy staged else before) :
    ((k.val % 2 = 0 → j.val = k.val + 1 → staged = none) → after = before) ∧
    (k.val % 2 = 0 → j.val = k.val + 1 → staged.isSome →
      (before.state = .claimed → after = { before with
        state := if (staged.getD config).mode = .timeLong then .claimed else .disabled }) ∧
      (before.state ≠ .claimed → (staged.getD config).mode ≠ .timeLong → after = before)) := by
  subst h
  constructor
  · intro free
    split
    · next pair =>
      obtain ⟨even, next⟩ := (pair_iff k j).mp pair
      rw [free even next]
      rfl
    · rfl
  · intro even next some
    obtain ⟨c, rfl⟩ := Option.isSome_iff_exists.mp some
    rw [if_pos ((pair_iff k j).mpr ⟨even, next⟩)]
    simp only [Channel.settledBy, Channel.pairWith, Option.getD_some, beq_iff_eq]
    refine ⟨fun claimed => ?_, fun free other => ?_⟩
    · rw [if_pos claimed]
      split <;> rfl
    · rw [if_neg other, if_neg free]

/-! ## Arming with a due cycle (R92, R93) -/

/-- Channel `k` given the due cycle `d` and armed against the count `x`. -/
def State.rearm (k : ChanNum) (d : Word) (x : Count) (s : State) : State :=
  (s.modChan k fun ch => { ch with due := some d }).arm k x

/-- The channel armed with the latch `new` and the due cycle `d`, one overrun more where the target passes it (R93). -/
def Channel.rearmed (d : Word) (new : Latch) (ch : Channel) : Channel :=
  { ch with
    due := some d, state := .armed new
    overruns := if cycleAfter new.ct d = true then min (ch.overruns + 1) 65535 else ch.overruns }

section

variable (s : State) (k : ChanNum) (d : Word) (x : Count)

/-- What an arming of channel `k` latches. -/
def State.nextLatch : Latch := (s.chans.get k).config.latch s.phu.p s.phu.speed x

theorem State.rearm_frame : s.rearm k d x = { s with
    chans := s.chans.put k ((s.chans.get k).rearmed d (s.nextLatch k x)), events := (s.rearm k d x).events } := by
  have chans : (s.rearm k d x).chans = s.chans.put k ((s.chans.get k).rearmed d (s.nextLatch k x)) := by
    rw [State.rearm, State.arm_chans, State.modChan_chans, Bank.modify, Bank.get_modify_same, Bank.modify, Bank.put_put]
    rfl
  rw [← chans]
  unfold State.rearm State.arm State.raiseIf
  dsimp only
  split <;> rfl

theorem State.rearm_requested (q : PortNum) (e : Event) : (s.rearm k d x).requested q e
    = (s.requested q e || (e == .channel && cycleAfter (s.nextLatch k x).ct d)) := by
  unfold State.rearm State.arm
  dsimp only
  rw [State.requested_raiseIf, State.modChan_chans, Bank.get_modify_same, Bool.and_comm]
  rfl

theorem State.rearm_enable (q : PortNum) : ((s.rearm k d x).events.get q).enable = (s.events.get q).enable :=
  ((State.channelWork_modChan s k _).trans (State.arm_channelWork _ k x)).enables q

end

/-! ## The on event (R87, R88, R94) -/

theorem State.onEvent_skips {s : State} {k : ChanNum} {l : Latch} (x : Count)
    (skips : (s.chans.get k).config.fires s.phu.speed (s.ttb.lookup ((s.chans.get k).config.gatingSerial l.ct)) = false) :
    s.onEvent k l x = s.rearm k (l.ct + 1) x := by
  simp only [State.onEvent, skips, Bool.false_eq_true, if_false]
  rfl

theorem State.onEvent_fires {s : State} {k : ChanNum} {l : Latch} (x : Count) {c : ChanConfig} {found : Option Record}
    (config : (s.chans.get k).config = c) (look : s.ttb.lookup (c.gatingSerial l.ct) = found)
    (fires : c.fires s.phu.speed found = true) :
    s.onEvent k l x = { s with
      chans := s.chans.put k { s.chans.get k with due := some (l.ct + 1), state := .on l (c.firstPulse l.ct found) }
      ttb := s.ttb.stamp c.stampOnPass (c.gatingSerial l.ct) } := by
  subst config look
  simp only [State.onEvent, fires, if_true]
  rfl

theorem Ttb.stamp_lookup (t : Ttb) (stamp : Option Stamp) (x y : Word) : (t.stamp stamp x).lookup y
    = (t.lookup y).map fun r => if y = x then (match stamp with
      | none => r
      | some st => r.stampWith st) else r := by
  cases stamp with
  | none => simp [Ttb.stamp]
  | some st =>
    rw [Ttb.stamp, Ttb.lookup_write _ _ _ _ fun r => by rw [Record.stampWith_frame]]
    by_cases h : y = x
    · simp [h]
    · simp [h]

/-! ## The end of a pulse (R96, R101) -/

theorem State.endPulse_eq (s : State) (k : ChanNum) (l : Latch) (x : Count) :
    s.endPulse k l x = (s.applyPending k).rearm k (l.ct + 1) x := rfl

/-- The end of a pulse reads the state after the pending configuration is applied, in which the Phase Unit, the records and
the free choices are as before. -/
theorem State.applyPending_frame (s : State) (k : ChanNum) :
    s.applyPending k = { s with chans := (s.applyPending k).chans, events := (s.applyPending k).events } := by
  have work := (s.applyPending_channelWork k).eq
  have table : { s.ttb with slots := (s.applyPending k).ttb.slots } = s.ttb := by rw [State.applyPending_ttb]
  rw [table, State.applyPending_frees] at work
  exact work

theorem State.applyPending_requested (s : State) (k : ChanNum) (q : PortNum) (e : Event) :
    (s.applyPending k).requested q e = (s.requested q e || (e == .staged && (s.chans.get k).pending.isSome)) := by
  have events : (s.applyPending k).events = (s.raiseIf (s.chans.get k).pending.isSome .staged).events := by
    rw [State.applyPending_events, State.raiseIf_events]
  rw [State.requested_congr events, State.requested_raiseIf, Bool.and_comm]

section

variable (s : State) (k : ChanNum) (l : Latch) (x : Count)

theorem State.endPulse_frame : s.endPulse k l x = { s with
    chans := (s.endPulse k l x).chans, events := (s.endPulse k l x).events } := by
  rw [State.endPulse_eq, State.rearm_frame, State.applyPending_frame]

/-- The latch at the end of a pulse is that of the configuration then applied. -/
theorem State.applyPending_nextLatch : (s.applyPending k).nextLatch k x
    = ((s.chans.get k).pending.getD (s.chans.get k).config).latch s.phu.p s.phu.speed x := by
  rw [State.nextLatch, State.applyPending_get_self, (s.applyPending_channelWork k).phu]

theorem State.endPulse_get_self {new : Latch}
    (hnew : new = ((s.chans.get k).pending.getD (s.chans.get k).config).latch s.phu.p s.phu.speed x) :
    (s.endPulse k l x).chans.get k = { s.chans.get k with
      config := (s.chans.get k).pending.getD (s.chans.get k).config, pending := none, due := some (l.ct + 1)
      state := .armed new
      overruns := if cycleAfter new.ct (l.ct + 1) = true then min ((s.chans.get k).overruns + 1) 65535
        else (s.chans.get k).overruns } := by
  rw [State.endPulse_eq, State.rearm_frame, State.applyPending_nextLatch, ← hnew]
  dsimp only
  rw [Bank.get_put_same, State.applyPending_get_self]
  rfl

theorem State.endPulse_get_ne {j : ChanNum} (h : j ≠ k) : (s.endPulse k l x).chans.get j
    = if isEven k = true ∧ j = partnerOf k then (s.chans.get j).settledBy (s.chans.get k).pending else s.chans.get j := by
  rw [State.endPulse_eq, State.rearm_frame]
  dsimp only
  rw [Bank.get_put_ne _ _ h, State.applyPending_get_ne s h]

theorem State.endPulse_requested (q : PortNum) (e : Event) {new : Latch}
    (hnew : new = ((s.chans.get k).pending.getD (s.chans.get k).config).latch s.phu.p s.phu.speed x) :
    (s.endPulse k l x).requested q e = (s.requested q e || (e == .staged && (s.chans.get k).pending.isSome) ||
      (e == .channel && cycleAfter new.ct (l.ct + 1))) := by
  rw [State.endPulse_eq, State.rearm_requested, State.applyPending_requested, State.applyPending_nextLatch, ← hnew]

end

/-! ## The gates and the stamps of Table 5-2 -/

theorem Gate.passes_eq (g : Gate) (found : Option Record) : g.passes found = match g, found with
    | .always, _ => true
    | _, none => false
    | .present, some r => decide (r.kind = .blank ∧ r.reject = none)
    | .presentAfter f, some r => decide (r.kind = .blank ∧ r.reject = none ∧ r.results.get f = .done)
    | .rejected, some r => decide ((r.kind = .blank ∨ r.kind = .splice) ∧ r.reject ≠ none)
    | .sample, some r => decide (r.hold = true ∧ r.reject = none ∧ r.kind ≠ .void)
    | .batchEnd, some r => r.batchEnd := by
  have kinds : ∀ k : Kind, k ≠ .void ↔ k = .blank ∨ k = .splice := fun k => by cases k <;> decide
  cases found with
  | none => cases g <;> rfl
  | some r =>
    cases g with
    | always => rfl
    | batchEnd => rfl
    | present => rw [Bool.eq_iff_iff]; simp [Gate.passes]
    | presentAfter f => rw [Bool.eq_iff_iff]; simp [Gate.passes, and_assoc]
    | rejected => rw [Bool.eq_iff_iff]; simp [Gate.passes, kinds, Option.isSome_iff_ne_none]
    | sample => rw [Bool.eq_iff_iff]; simp [Gate.passes, and_assoc]

theorem ChanConfig.stampOnPass_eq (c : ChanConfig) : c.stampOnPass = match c.gate, c.stamp with
    | .present, some f => some (.result f)
    | .presentAfter _, some f => some (.result f)
    | .rejected, _ => some (.route .diverted)
    | .sample, _ => some (.route .sampled)
    | _, _ => none := by
  unfold ChanConfig.stampOnPass
  cases c.gate <;> cases c.stamp <;> rfl

/-- The pulse that begins, by the mode (R115, R120 to R122). -/
theorem ChanConfig.firstPulse_eq (c : ChanConfig) (ct : Word) (found : Option Record) : c.firstPulse ct found =
    { gating := ⟨ct - BitVec.ofNat 16 c.sp, found.map Record.birth⟩
      stamp := c.stampOnPass
      dots := if c.mode = .dots then c.dotCount - 1 else 0
      timer := match c.mode with
        | .angle => none
        | .time => some ⟨c.duration, 20 * c.duration⟩
        | .timeLong => some ⟨c.longDuration, 20 * c.longDuration⟩
        | .dots => some ⟨c.dot, 20 * c.dot⟩ } := by
  have timer : ∀ n, some (Timer.start n) = some ⟨n, 20 * n⟩ := fun n =>
    congrArg (fun m => some (Timer.mk n m)) (Nat.mul_comm n 20)
  refine (congrArg (fun t : Option Timer => Pulse.mk ⟨c.gatingSerial ct, found.map Record.birth⟩ c.stampOnPass
    (if c.mode = .dots then c.dotCount - 1 else 0) t) (?_ : c.firstTimer = _))
  unfold ChanConfig.firstTimer
  cases c.mode with
  | angle => rfl
  | time => exact timer _
  | timeLong => exact timer _
  | dots => exact timer _

/-- Does the on event fire, by the minimum speed and the gate (R94)? -/
theorem ChanConfig.fires_iff (c : ChanConfig) (speed : Int) (found : Option Record) :
    c.fires speed found = true ↔ (c.minSpeed : Int) ≤ speed ∧ c.gate.passes found = true := by
  simp [ChanConfig.fires]

/-- Settles O40: a skipped on event and the end of a pulse arm with the due cycle Ct + 1 (`State.rearm`), and one that fires
starts `ChanConfig.firstPulse`. -/
theorem onEventFiresOrSkips : Obligations.OnEventFiresOrSkips := by
  rintro s k j l x y q e pulse ch c next found passes stamp passed rfl rfl rfl hpasses hstamp rfl rfl
  replace hpasses : passes = (s.chans.get k).config.gate.passes
      (s.ttb.lookup ((s.chans.get k).config.gatingSerial l.ct)) := hpasses.trans (Gate.passes_eq _ _).symm
  replace hstamp : stamp = (s.chans.get k).config.stampOnPass := hstamp.trans (ChanConfig.stampOnPass_eq _).symm
  subst hpasses hstamp
  refine ⟨fun armed => ?_, fun on => ?_, ?_, ?_, ?_⟩
  · simp only [State.pointEvent, armed]
  · simp only [State.pointEvent, on]
  · rintro low new rfl
    have skips : (s.chans.get k).config.fires s.phu.speed
        (s.ttb.lookup ((s.chans.get k).config.gatingSerial l.ct)) = false := by
      rw [← Bool.not_eq_true, ChanConfig.fires_iff]
      rintro ⟨fast, pass⟩
      rcases low with slow | fail
      · exact absurd fast (not_le.mpr slow)
      · exact Bool.noConfusion (pass.symm.trans fail)
    rw [State.onEvent_skips x skips]
    exact ⟨s.rearm_frame k (l.ct + 1) x, s.rearm_requested k (l.ct + 1) x q e, s.rearm_enable k (l.ct + 1) x q⟩
  · intro fast pass
    rw [State.onEvent_fires x rfl rfl ((ChanConfig.fires_iff _ _ _).mpr ⟨fast, pass⟩), ChanConfig.firstPulse_eq]
    refine ⟨?_, ?_, ?_⟩
    · rw [Ttb.stamp_frame]
      rfl
    · simp only [State.out, Bank.get_put_same]
      rfl
    · refine (Ttb.stamp_lookup _ _ _ y).trans (Option.map_congr fun r _ => ?_)
      cases (s.chans.get k).config.stampOnPass with
      | none => rfl
      | some st => cases st <;> rfl
  · rintro new hnew
    have partner := fun apart => Channel.follows_staged (s.chans.get k).config (s.endPulse_get_ne k l x (j := j) apart)
    refine ⟨s.endPulse_frame k l x, s.endPulse_get_self k l x hnew, fun apart => (partner apart).1,
      fun even pair => (partner ?_).2 even pair, ?_, s.endPulse_requested k l x q e hnew,
      (s.endPulse_channelWork k l x).enables q⟩
    · rintro rfl
      omega
    · rw [State.out, s.endPulse_get_self k l x hnew]
      rfl

/-! ## DISABLE_CHANNEL (R98, R105) -/

theorem namedChan_none {b : Byte} (h : 15 < b.toNat) : namedChan b = none := dif_neg (by omega)

theorem namedChan_some {b : Byte} {k : ChanNum} (h : b.toNat = k.val) : namedChan b = some k := by
  have small : b.toNat < 16 := by omega
  rw [namedChan, dif_pos small]
  exact congrArg some (Fin.ext h)

theorem exec_disableChannel_eq {s : State} {p : PortNum} (b : Byte) (address : s.bti = .code p)
    (setup : (s.ports.get p).privileges.setup = true) :
    exec (.disableChannel p b) s = .next { s.disableChannel p b with bti := .idle } := by
  show transact p (fun s => s.privileged p Code.disableChannel (s.hasSetup p) (State.disableChannel p b)) s = _
  rw [transact_setup _ _ (bti_ne_init address) setup, State.openWrite_addressed address]

theorem State.disableChannel_named {s : State} {p : PortNum} {b : Byte} {k : ChanNum} (h : b.toNat = k.val) :
    { s.disableChannel p b with bti := .idle }
      = (s.disable k).answered p ⟨.ok, 0x52, [((s.disable k).chans.get k).state.phase.code]⟩ := by
  rw [State.disableChannel, namedChan_some h]
  rfl

theorem State.disable_pulse {s : State} {k : ChanNum} {pulse : Pulse} (h : (s.chans.get k).state.pulse = some pulse) :
    s.disable k = s.cutPulse .disabled k := by
  unfold State.disable
  cases state : (s.chans.get k).state with
  | on l x => rfl
  | gap l x => rfl
  | _ => simp [state, ChanState.pulse] at h

theorem State.cutPulse_ttb (after : ChanState) {s : State} {k : ChanNum} {pulse : Pulse}
    (h : (s.chans.get k).state.pulse = some pulse) : (s.cutPulse after k).ttb = s.ttb.unstamp pulse := by
  simp only [State.cutPulse, h, State.applyPending_ttb]
  rfl

theorem State.cutPulse_get_pulse (after : ChanState) {s : State} {k j : ChanNum} {pulse : Pulse}
    (h : (s.chans.get k).state.pulse = some pulse) (apart : j ≠ k) : (s.cutPulse after k).chans.get j
      = if isEven k = true ∧ j = partnerOf k then (s.chans.get j).settledBy (s.chans.get k).pending else s.chans.get j := by
  rw [State.cutPulse_get_ne after s apart, h]
  simp only [Option.isSome_some, true_and]

/-- The requests of a cut do not rest on the state the channel takes. -/
theorem State.cutPulse_requested_any (after : ChanState) (s : State) (k : ChanNum) (q : PortNum) (e : Event) :
    (s.cutPulse after k).requested q e = (s.cutPulse .waiting k).requested q e := by
  refine State.requested_congr ?_ q e
  unfold State.cutPulse
  split
  · rfl
  · simp only [State.applyPending_events, State.modChan_chans, Bank.get_modify_same, State.modChan_events]

/-- The reversal of a stamp leaves the table where the gating serial does not find the pulse's own record (R29). -/
theorem Ttb.unstamp_absent {t : Ttb} {pulse : Pulse}
    (absent : ∀ r ∈ t.lookup pulse.gating.serial, pulse.gating.birth ≠ some r.birth) : t.unstamp pulse = t := by
  unfold Ttb.unstamp
  split
  · rfl
  · rw [Ttb.writeHeld_eq, if_neg]
    rw [Option.any_eq_true]
    rintro ⟨r, found, own⟩
    exact absent r found (beq_iff_eq.mp own)

theorem Ttb.unstamp_found {t : Ttb} {pulse : Pulse} {r : Record} {st : Stamp}
    (found : t.lookup pulse.gating.serial = some r) (own : pulse.gating.birth = some r.birth) (stamp : pulse.stamp = some st) :
    (t.unstamp pulse).lookup pulse.gating.serial = some (r.unstamp st) := by
  have gating : pulse.gating = ⟨pulse.gating.serial, some r.birth⟩ := by rw [← own]
  rw [Ttb.unstamp_lookup, found, Option.map_some, Record.reversed]
  simp only [stamp]
  rw [if_pos gating]

/-- Settles O42: a DISABLED or CLAIMED channel is left, a WAITING or ARMED one loses its target, and a pulse is cut
(`State.cutPulse`). -/
theorem disableCutsThePulse : Obligations.DisableCutsThePulse := by
  rintro s p q k j b ch y e address setup rfl
  rw [exec_disableChannel_eq b address setup]
  refine ⟨fun above => ?_, fun named => ?_⟩
  · rw [State.disableChannel, namedChan_none above]
    rfl
  rw [State.disableChannel_named named]
  refine ⟨fun disabled => ?_, fun claimed => ?_, fun idle => ?_, fun pulse hpulse => completes_next ?_⟩
  · simp only [State.disable, disabled]
    rfl
  · simp only [State.disable, claimed]
    rfl
  · have left : s.disable k = s.modChan k fun ch => { ch with state := .disabled, due := none } := by
      unfold State.disable
      cases state : (s.chans.get k).state with
      | waiting => rfl
      | armed l => rfl
      | _ => simp [state, ChanState.phase] at idle
    rw [left, State.modChan_chans, Bank.get_modify_same]
    rfl
  · have state := s.cutPulse_get_self .disabled k pulse hpulse
    have partner := fun apart =>
      Channel.follows_staged (s.chans.get k).config (State.cutPulse_get_pulse .disabled hpulse (j := j) apart)
    have table := State.cutPulse_ttb .disabled hpulse
    rw [State.disable_pulse hpulse, state]
    refine ⟨?_, state, fun apart => (partner apart).1, fun even pair => (partner ?_).2 even pair, ?_,
      (s.cutPulse_channelWork .disabled k).enables q, fun plain => ?_, fun apart => ?_, fun missing => ?_, fun r found other => ?_,
      fun r found own => ⟨fun f stamp => ?_, fun v stamp => ?_⟩⟩
    · have work := (s.cutPulse_channelWork .disabled k).eq
      rw [State.cutPulse_frees] at work
      exact congrArg (fun u => State.answered u p ⟨.ok, 0x52, [0]⟩) work
    · rintro rfl
      omega
    · refine (s.cutPulse_requested_any .disabled k q e).trans ?_
      rw [State.cutPulse_requested, hpulse]
      simp
    · exact table.trans (by rw [Ttb.unstamp, plain])
    · refine (congrArg (fun t : Ttb => t.lookup y) table).trans ?_
      rw [Ttb.unstamp_lookup]
      have left : Record.reversed (some pulse) y = id := funext fun r =>
        if_neg fun e => apart (congrArg Held.serial e).symm
      rw [left, Option.map_id]
      rfl
    · exact table.trans (Ttb.unstamp_absent fun r found => by rw [missing] at found; cases found)
    · refine table.trans (Ttb.unstamp_absent fun r' found' => ?_)
      rw [Option.mem_def.mp found, Option.mem_some_iff] at found'
      exact found' ▸ other
    · exact (congrArg (fun t : Ttb => t.lookup pulse.gating.serial) table).trans (Ttb.unstamp_found found own stamp)
    · refine (congrArg (fun t : Ttb => t.lookup pulse.gating.serial) table).trans ((Ttb.unstamp_found found own stamp).trans ?_)
      simp only [Record.unstamp]
      split <;> rfl

end Sys2Proof.Machine

/-! PROOFS. The record writes (R60, R79 to R82): field lists and the order of their entries, what each field does to the
record, the sets of ignored fields, and WritesApplyFields (O32). -/

namespace Sys2Proof.Machine

/-! ## Field lists (R81, Table 4-2) -/

/-- One more than the largest value of each field, in the order of the field codes (Table 4-2). -/
def valueLimits : List Nat := [3, 16, 3, 3, 3, 3, 3, 3, 2, 256]

theorem namedKind_isSome (v : Byte) : (namedKind v).isSome = true ↔ v.toNat < 3 := by
  unfold namedKind
  split
  · next h => simp [h]
  · next h => simp [h]
  · next h => simp [h]
  · next h0 h1 h2 =>
    rw [imp_false] at h0 h1 h2
    simp only [Option.isSome_none, Bool.false_eq_true, false_iff]
    omega

theorem namedResult_isSome (v : Byte) : (namedResult v).isSome = true ↔ v.toNat < 3 := by
  rw [← namedKind_isSome]
  unfold namedResult namedKind
  split <;> rfl

theorem namedKind_eq_some {v : Byte} {k : Kind} (h : namedKind v = some k) : v = k.code := by
  unfold namedKind at h
  split at h <;> cases h <;> next value => exact BitVec.eq_of_toNat_eq value

theorem namedResult_eq_some {v : Byte} {x : Result} (h : namedResult v = some x) : v = x.code.setWidth 8 := by
  unfold namedResult at h
  split at h <;> cases h <;> next value => exact BitVec.eq_of_toNat_eq value

theorem resultFieldOf_code (f : ResultField) : resultFieldOf f.code = some f := by cases f <;> rfl

theorem resultFieldOf_eq_some {n : Nat} {f : ResultField} (h : resultFieldOf n = some f) : n = f.code := by
  unfold resultFieldOf at h
  split at h <;> cases h <;> rfl

theorem resultFieldOf_isSome (n : Nat) : (resultFieldOf n).isSome = true ↔ 2 ≤ n ∧ n ≤ 7 := by
  constructor
  · intro h
    obtain ⟨f, h⟩ := Option.isSome_iff_exists.mp h
    rw [resultFieldOf_eq_some h]
    cases f <;> decide
  · rintro ⟨low, high⟩
    interval_cases n <;> rfl

theorem valueLimits_result (f : ResultField) : valueLimits.getD f.code 0 = 3 := by cases f <;> rfl

/-- An entry is named exactly when its value is below its field's limit; an unknown field has none. -/
theorem namedEntry_isSome (e : RawEntry) :
    (namedEntry e).isSome = true ↔ e.value.toNat < valueLimits.getD e.field.toNat 0 := by
  unfold namedEntry
  split
  · next code =>
    rw [code, Option.isSome_map]
    exact namedKind_isSome e.value
  · next code =>
    rw [code]
    show _ ↔ e.value.toNat < 16
    split <;> simp_all
  · next code =>
    rw [code]
    show _ ↔ e.value.toNat < 2
    have zero : e.value = 0 ↔ e.value.toNat = 0 := BitVec.toNat_inj.symm
    have one : e.value = 1 ↔ e.value.toNat = 1 := BitVec.toNat_inj.symm
    split
    · simp_all
    · split
      · simp_all
      · simp_all; omega
  · next code =>
    rw [code]
    exact iff_of_true rfl e.value.isLt
  · next h0 h1 h8 h9 =>
    rw [imp_false] at h0 h1 h8 h9
    split
    · next f code =>
      rw [resultFieldOf_eq_some code, valueLimits_result, Option.isSome_map]
      exact namedResult_isSome e.value
    · next unknown =>
      have beyond : valueLimits.length ≤ e.field.toNat := by
        have notResult := (resultFieldOf_isSome e.field.toNat).not.mp (by rw [unknown]; exact Bool.false_ne_true)
        show 10 ≤ _
        omega
      rw [List.getD_eq_default _ _ beyond]
      exact iff_of_false Bool.false_ne_true (Nat.not_lt_zero _)

theorem Entry.field_result (f : ResultField) (v : Result) : (Entry.result f v).field.val = f.code := by
  cases f <;> rfl

theorem namedEntry_field {e : RawEntry} {x : Entry} (named : namedEntry e = some x) : x.field.val = e.field.toNat := by
  unfold namedEntry at named
  split at named
  · next code =>
    obtain ⟨k, -, rfl⟩ := Option.map_eq_some_iff.mp named
    exact code.symm
  · next code =>
    split at named
    · cases named
      exact code.symm
    · cases named
  · next code =>
    split at named
    · cases named
      exact code.symm
    · split at named
      · cases named
        exact code.symm
      · cases named
  · next code =>
    cases named
    exact code.symm
  · split at named
    · next f code =>
      obtain ⟨v, -, rfl⟩ := Option.map_eq_some_iff.mp named
      rw [Entry.field_result, resultFieldOf_eq_some code]
    · cases named

theorem namedEntries_fields {es : List RawEntry} {xs : List Entry} (named : namedEntries es = some xs) :
    xs.map (fun x => x.field.val) = es.map fun e => e.field.toNat := by
  induction es generalizing xs with
  | nil => cases named; rfl
  | cons e rest ih =>
    unfold namedEntries at named
    split at named
    · next x xs' first others =>
      split at named
      · cases named
      · cases named
        rw [List.map_cons, List.map_cons, ih others, namedEntry_field first]
    · cases named

theorem namedEntries_cons_isSome (e : RawEntry) (rest : List RawEntry) : (namedEntries (e :: rest)).isSome = true ↔
    (namedEntry e).isSome = true ∧ (namedEntries rest).isSome = true ∧
      e.field.toNat ∉ rest.map fun e => e.field.toNat := by
  cases first : namedEntry e with
  | none => simp [namedEntries, first]
  | some x =>
    cases others : namedEntries rest with
    | none => simp [namedEntries, first, others]
    | some xs =>
      have repeated : xs.any (fun y => y.field == x.field) = true ↔ e.field.toNat ∈ rest.map fun e => e.field.toNat := by
        rw [← namedEntries_fields others, ← namedEntry_field first]
        simp [Fin.ext_iff]
      rw [← repeated]
      simp only [namedEntries, first, others]
      split <;> simp_all

/-- A list is well formed exactly when no field is named twice and every value is in its field's range. -/
theorem namedEntries_isSome (es : List RawEntry) : (namedEntries es).isSome = true ↔
    (es.map fun e => e.field.toNat).Nodup ∧ ∀ e ∈ es, e.value.toNat < valueLimits.getD e.field.toNat 0 := by
  induction es with
  | nil => simp [namedEntries]
  | cons e rest ih =>
    rw [namedEntries_cons_isSome, ih, namedEntry_isSome, List.map_cons, List.nodup_cons, List.forall_mem_cons]
    tauto

/-- The value a field list carries for a field. -/
def carriedIn (es : List RawEntry) (n : Nat) : Option Byte := (es.find? fun e => e.field.toNat == n).map RawEntry.value

theorem carriedIn_inRange {es : List RawEntry} (inRange : ∀ e ∈ es, e.value.toNat < valueLimits.getD e.field.toNat 0)
    (n : Nat) (v : Byte) (h : carriedIn es n = some v) : v.toNat < valueLimits.getD n 0 := by
  obtain ⟨e, found, rfl⟩ := Option.map_eq_some_iff.mp h
  have own := List.find?_some found
  rw [beq_iff_eq] at own
  exact own ▸ inRange e (List.mem_of_find?_eq_some found)

theorem carriedIn_isSome (es : List RawEntry) (n : Nat) : (carriedIn es n).isSome = true ↔ ∃ e ∈ es, e.field.toNat = n := by
  simp [carriedIn]

/-- The entry of a named list for a field is the one that the carried value names. -/
theorem find?_named {es : List RawEntry} {xs : List Entry} (named : namedEntries es = some xs) (n : Fin 10) :
    xs.find? (fun x => x.field == n) = (carriedIn es n.val).bind fun v => namedEntry ⟨BitVec.ofNat 8 n.val, v⟩ := by
  induction es generalizing xs with
  | nil => cases named; rfl
  | cons e rest ih =>
    unfold namedEntries at named
    split at named
    · next x xs' first others =>
      split at named
      · cases named
      · cases named
        have code := namedEntry_field first
        by_cases own : e.field.toNat = n.val
        · have hit : x.field = n := Fin.ext (code.trans own)
          have same : (⟨BitVec.ofNat 8 n.val, e.value⟩ : RawEntry) = e := by rw [← own, BitVec.ofNat_toNat, BitVec.setWidth_eq]
          simp [carriedIn, hit, own, same, first]
        · have miss : x.field ≠ n := fun h => own (code ▸ congrArg Fin.val h)
          simpa [carriedIn, miss, own] using ih others
    · cases named

theorem filter_eq_find? {α β : Type} [DecidableEq β] (g : α → β) {xs : List α} (nodup : (xs.map g).Nodup) (b : β) :
    xs.filter (fun x => g x == b) = (xs.find? fun x => g x == b).toList := by
  induction xs with
  | nil => rfl
  | cons x rest ih =>
    obtain ⟨apart, nodup⟩ := List.nodup_cons.mp nodup
    by_cases own : g x = b
    · have none_left : rest.filter (fun y => g y == b) = [] := by
        rw [List.filter_eq_nil_iff]
        intro y hy same
        exact apart (own ▸ beq_iff_eq.mp same ▸ List.mem_map_of_mem hy)
      simp [own, none_left]
    · simpa [own] using ih nodup

/-- A well-formed list is dealt with field by field (R60). -/
theorem inFieldOrder_named {es : List RawEntry} {xs : List Entry} (named : namedEntries es = some xs) :
    inFieldOrder xs = fieldOrder.flatMap fun n =>
      ((carriedIn es n.val).bind fun v => namedEntry ⟨BitVec.ofNat 8 n.val, v⟩).toList := by
  have nodup : (xs.map Entry.field).Nodup := by
    have codes := (namedEntries_isSome es).mp (by rw [named]; rfl)
    rw [← namedEntries_fields named, ← Function.comp_def Fin.val Entry.field, ← List.map_map] at codes
    exact .of_map _ codes.1
  unfold inFieldOrder
  congr 1
  funext n
  rw [filter_eq_find? Entry.field nodup, find?_named named]

end Sys2Proof.Machine

/-! PROOFS. What a record write does to the record (R30 to R35, R60): each field's rule on a record with a list of
reasons to reject it, the sets of ignored fields, and the fields in order. -/

namespace Sys2Proof.Machine

/-! ## Reasons to reject, in the order they come (R31) -/

/-- The record with `reasons` for its reject: the first is kept, and any more set FURTHER. -/
def Record.withReasons (r : Record) (reasons : List Reject) : Record :=
  { r with reject := reasons.head?, further := r.further || decide (1 < reasons.length) }

theorem Record.withReasons_own (r : Record) : r.withReasons r.reject.toList = r := by
  have first : r.reject.toList.head? = r.reject := by cases r.reject <;> rfl
  have single : decide (1 < r.reject.toList.length) = false := by cases r.reject <;> rfl
  rw [Record.withReasons, first, single, Bool.or_false]

theorem Record.rejectWith_withReasons (r : Record) (reasons : List Reject) (why : Reject) :
    (r.withReasons reasons).rejectWith why = r.withReasons (reasons ++ [why]) := by
  rw [Record.rejectWith_eq]
  cases reasons <;> simp [Record.withReasons]

theorem Record.rejectIf_withReasons (r : Record) (reasons : List Reject) (c : Bool) (why : Reject) :
    (r.withReasons reasons).rejectIf c why = r.withReasons (reasons ++ if c then [why] else []) := by
  cases c
  · simp
  · exact r.rejectWith_withReasons reasons why

/-! ## A well-formed write -/

/-- A record write whose field list is well formed: who writes, under what mask, to a line how tracked, to a record
below Kc or not, and the value carried for each field. -/
structure FieldWrite where
  port : PortNum
  mask : BitVec 10
  tracking : Tracking
  belowKc : Bool
  carried : Nat → Option Byte
  inRange : ∀ n v, carried n = some v → v.toNat < valueLimits.getD n 0

namespace FieldWrite

variable (w : FieldWrite)

/-- The entry of a field, if the write carries it. -/
def entry (n : Nat) : Option Entry := (w.carried n).bind fun v => namedEntry ⟨BitVec.ofNat 8 n, v⟩

/-- Does the write carry the field, with the mask admitting it? -/
def inMask (n : Nat) : Bool := (w.carried n).isSome && w.mask.getLsbD n

/-- Does the write carry the field, with the mask refusing it? -/
def masked (n : Nat) : Bool := (w.carried n).isSome && !w.mask.getLsbD n

/-- The record after one field. -/
def take (r : Record) (n : Nat) : Record :=
  if w.inMask n then (w.entry n).elim r fun e => (e.apply w.port w.tracking w.belowKc r).1 else r

/-- Is a field in the mask ignored by its own rule? -/
def ignores (r : Record) (n : Nat) : Bool :=
  w.inMask n && (w.entry n).any fun e => !(e.apply w.port w.tracking w.belowKc r).2

variable {w} {n : Nat} {r : Record} {v : Byte}

theorem lt_ten (h : (w.carried n).isSome = true) : n < 10 := by
  obtain ⟨v, carried⟩ := Option.isSome_iff_exists.mp h
  by_contra beyond
  have none_above := w.inRange n v carried
  rw [List.getD_eq_default _ _ (show valueLimits.length ≤ n from Nat.le_of_not_lt beyond)] at none_above
  exact Nat.not_lt_zero _ none_above

theorem take_of_absent (h : w.carried n = none) : w.take r n = r := by simp [take, inMask, h]

theorem ignores_of_absent (h : w.carried n = none) : w.ignores r n = false := by simp [ignores, inMask, h]

theorem entry_of_carried (h : w.carried n = some v) : w.entry n = namedEntry ⟨BitVec.ofNat 8 n, v⟩ := by simp [entry, h]

theorem entry_field {e : Entry} (small : n < 10) (h : w.entry n = some e) : e.field.val = n := by
  obtain ⟨v, -, named⟩ := Option.bind_eq_some_iff.mp h
  rw [namedEntry_field named, BitVec.toNat_ofNat, Nat.mod_eq_of_lt (by omega)]

theorem entry_isSome (small : n < 10) : (w.entry n).isSome = (w.carried n).isSome := by
  cases carried : w.carried n with
  | none => simp [entry, carried]
  | some v =>
    rw [entry_of_carried carried]
    refine (namedEntry_isSome _).mpr ?_
    rw [BitVec.toNat_ofNat, Nat.mod_eq_of_lt (by omega)]
    exact w.inRange n v carried

theorem entry_kind (h : w.carried 0 = some v) : ∃ k, namedKind v = some k ∧ w.entry 0 = some (.kind k) := by
  obtain ⟨k, named⟩ := Option.isSome_iff_exists.mp ((namedKind_isSome v).mpr (w.inRange 0 v h))
  exact ⟨k, named, (entry_of_carried h).trans (congrArg (Option.map Entry.kind) named)⟩

theorem entry_reject (h : w.carried 1 = some v) : w.entry 1 = some (.reject ⟨v.toNat, w.inRange 1 v h⟩) :=
  (entry_of_carried h).trans (dif_pos (w.inRange 1 v h))

theorem entry_result {f : ResultField} (h : w.carried f.code = some v) :
    ∃ x, namedResult v = some x ∧ w.entry f.code = some (.result f x) := by
  have small : v.toNat < 3 := by rw [← valueLimits_result f]; exact w.inRange f.code v h
  obtain ⟨x, named⟩ := Option.isSome_iff_exists.mp ((namedResult_isSome v).mpr small)
  refine ⟨x, named, (entry_of_carried h).trans ?_⟩
  cases f <;> exact congrArg (Option.map _) named

theorem entry_hold (h : w.carried 8 = some v) : w.entry 8 = some (.hold (v == 1)) := by
  have small : v.toNat < 2 := w.inRange 8 v h
  have value : v = 0 ∨ v = 1 := by
    rw [← BitVec.toNat_inj, ← BitVec.toNat_inj]
    exact Nat.le_one_iff_eq_zero_or_eq_one.mp (Nat.le_of_lt_succ small)
  rw [entry_of_carried h]
  rcases value with rfl | rfl <;> rfl

theorem entry_note (h : w.carried 9 = some v) : w.entry 9 = some (.note v) := entry_of_carried h

end FieldWrite

/-! ## Each entry on a record with reasons -/

theorem Record.mergeResult_results (f : ResultField) (v : Result) (r : Record) :
    (r.mergeResult f v).results = if (r.results.get f).takes v then r.results.set f v else r.results := by
  unfold Record.mergeResult
  dsimp only
  split
  · rw [Record.rejectIf_frame]
  · rfl

/-- An entry leaves the results of every field but its own. -/
theorem Entry.apply_results (p : PortNum) (tracking : Tracking) (belowKc : Bool) (r : Record) {e : Entry} {f : ResultField}
    (apart : e.field.val ≠ f.code) : (e.apply p tracking belowKc r).1.results.get f = r.results.get f := by
  cases e with
  | kind k =>
    cases belowKc
    · rfl
    · simp only [Entry.apply, if_true, Record.writeKind]
      rw [Record.rejectIf_frame, Record.rejectIf_frame]
  | reject code => rw [Entry.apply, Record.rejectWith_eq]
  | result g v =>
    have other : f ≠ g := fun same => apart (same ▸ Entry.field_result g v)
    rw [Entry.apply, Record.mergeResult_results]
    split
    · rw [Results.get_set, if_neg other]
    · rfl
  | hold b => rfl
  | note v => rfl

/-- Whether an entry is taken rests, of the record, on the result of its own field alone. -/
theorem Entry.apply_taken_congr (p : PortNum) (tracking : Tracking) (belowKc : Bool) (e : Entry) {r r' : Record}
    (same : ∀ f : ResultField, e.field.val = f.code → r'.results.get f = r.results.get f) :
    (e.apply p tracking belowKc r').2 = (e.apply p tracking belowKc r).2 := by
  cases e with
  | kind k => cases belowKc <;> rfl
  | result f v => exact congrArg (fun x => Result.takes x v) (same f (Entry.field_result f v))
  | _ => rfl

/-- A FAULT new to its field, on a record with reasons: one more of them (R30). -/
theorem Record.mergeResult_withReasons_fault {r : Record} {f : ResultField} (free : r.results.get f ≠ .fault)
    (reasons : List Reject) : (r.withReasons reasons).mergeResult f .fault
      = Record.withReasons { r with results := r.results.set f .fault } (reasons ++ [.fault f]) := by
  refine (Record.mergeResult_fault (r := r.withReasons reasons) free).trans ?_
  rw [← Record.rejectWith_withReasons, Record.rejectWith_eq]
  rfl

/-- A kind write on a record with reasons: SPLICE is one more, and so is LOST for a blank made of a VOID record (R34). -/
theorem Record.writeKind_withReasons (tracking : Tracking) (k : Kind) (r : Record) (reasons : List Reject) :
    (r.withReasons reasons).writeKind tracking k = Record.withReasons { r with kind := k }
      (reasons ++ (if k == .splice then [.splice] else [])
        ++ if tracking == .lost && (r.kind == .void && k != .void) then [.lost] else []) :=
  calc ((Record.withReasons { r with kind := k } reasons).rejectIf (k == .splice) .splice).rejectIf
        (tracking == .lost && (r.kind == .void && k != .void)) .lost
      = _ := by rw [Record.rejectIf_withReasons, Record.rejectIf_withReasons]

namespace FieldWrite

variable (w : FieldWrite) (b r : Record) (reasons : List Reject)

theorem take_kind : w.take (b.withReasons reasons) 0 =
    Record.withReasons { b with kind := if w.inMask 0 && w.belowKc then
        (if w.carried 0 = some 0 then .blank else if w.carried 0 = some 1 then .void else .splice)
      else b.kind }
      (reasons ++ (if w.inMask 0 && w.belowKc && w.carried 0 == some 2 then [.splice] else [])
        ++ if w.inMask 0 && w.belowKc && w.carried 0 != some 1 && b.kind == .void && w.tracking == .lost
          then [.lost] else []) := by
  cases admitted : w.inMask 0 with
  | false => simp [take, admitted]
  | true =>
    obtain ⟨v, carried⟩ := Option.isSome_iff_exists.mp (Bool.and_eq_true_iff.mp admitted).1
    obtain ⟨k, named, entry⟩ := entry_kind carried
    rw [take, admitted, if_pos rfl, entry, Option.elim_some, Entry.apply]
    cases below : w.belowKc with
    | false => simp
    | true =>
      rw [if_pos rfl, Record.writeKind_withReasons, carried, namedKind_eq_some named]
      cases k <;> simp [Kind.code, Bool.and_comm]

theorem take_reject : w.take (b.withReasons reasons) 1 = b.withReasons (reasons ++ if w.inMask 1 then
    [.port w.port ⟨((w.carried 1).getD 0).toNat % 16, Nat.mod_lt _ (by decide)⟩] else []) := by
  cases admitted : w.inMask 1 with
  | false => simp [take, admitted]
  | true =>
    obtain ⟨v, carried⟩ := Option.isSome_iff_exists.mp (Bool.and_eq_true_iff.mp admitted).1
    have code : v.toNat % 16 = v.toNat := Nat.mod_eq_of_lt (w.inRange 1 v carried)
    rw [take, admitted, if_pos rfl, entry_reject carried, Option.elim_some, Entry.apply, Record.rejectWith_withReasons]
    simp [carried, code]

theorem take_hold : w.take (b.withReasons reasons) 8
    = Record.withReasons { b with hold := if w.inMask 8 then w.carried 8 == some 1 else b.hold } reasons := by
  cases admitted : w.inMask 8 with
  | false => simp [take, admitted]
  | true =>
    obtain ⟨v, carried⟩ := Option.isSome_iff_exists.mp (Bool.and_eq_true_iff.mp admitted).1
    rw [take, admitted, if_pos rfl, entry_hold carried, Option.elim_some, Entry.apply, carried]
    rfl

theorem take_note : w.take (b.withReasons reasons) 9
    = Record.withReasons { b with note := if w.inMask 9 then (w.carried 9).getD 0 else b.note } reasons := by
  cases admitted : w.inMask 9 with
  | false => simp [take, admitted]
  | true =>
    obtain ⟨v, carried⟩ := Option.isSome_iff_exists.mp (Bool.and_eq_true_iff.mp admitted).1
    rw [take, admitted, if_pos rfl, entry_note carried, Option.elim_some, Entry.apply, carried]
    rfl

/-! ### The fields ignored by their rule (R82) -/

theorem ignores_kind : w.ignores r 0 = (w.inMask 0 && !w.belowKc) := by
  cases admitted : w.inMask 0 with
  | false => simp [ignores, admitted]
  | true =>
    obtain ⟨v, carried⟩ := Option.isSome_iff_exists.mp (Bool.and_eq_true_iff.mp admitted).1
    obtain ⟨k, -, entry⟩ := entry_kind carried
    rw [ignores, admitted, entry]
    cases below : w.belowKc <;> rfl

theorem ignores_result (f : ResultField) : w.ignores r f.code = (w.inMask f.code &&
    ((r.results.get f == .fault && w.carried f.code == some 1) || w.carried f.code == some 0)) := by
  cases admitted : w.inMask f.code with
  | false => simp [ignores, admitted]
  | true =>
    obtain ⟨v, carried⟩ := Option.isSome_iff_exists.mp (Bool.and_eq_true_iff.mp admitted).1
    obtain ⟨x, named, entry⟩ := entry_result carried
    have taken : w.ignores r f.code = !(r.results.get f).takes x := by simp [ignores, admitted, entry, Entry.apply]
    rw [taken, carried, namedResult_eq_some named]
    cases r.results.get f <;> cases x <;> rfl

theorem ignores_reject : w.ignores r 1 = false := by
  cases carried : w.carried 1 with
  | none => exact ignores_of_absent carried
  | some v => simp [ignores, entry_reject carried, Entry.apply]

theorem ignores_hold : w.ignores r 8 = false := by
  cases carried : w.carried 8 with
  | none => exact ignores_of_absent carried
  | some v => simp [ignores, entry_hold carried, Entry.apply]

theorem ignores_note : w.ignores r 9 = false := by
  cases carried : w.carried 9 with
  | none => exact ignores_of_absent carried
  | some v => simp [ignores, entry_note carried, Entry.apply]

theorem ignores_of_ten_le (beyond : 10 ≤ n) : w.ignores r n = false := by
  cases carried : w.carried n with
  | none => exact ignores_of_absent carried
  | some v => exact absurd (lt_ten (by rw [carried]; rfl)) (Nat.not_lt.mpr beyond)

/-! ### The results (R30) -/

/-- Does the write bring the field a FAULT that it did not hold? -/
def faults (f : ResultField) : Bool := w.inMask f.code && w.carried f.code == some 2 && r.results.get f != .fault

/-- The results with one field's written value, where it is taken. -/
def merged (x : Results) (f : ResultField) : Results :=
  if w.inMask f.code && !w.ignores r f.code then x.set f (if w.carried f.code = some 1 then .done else .fault) else x

theorem take_result {f : ResultField} (same : b.results.get f = r.results.get f) :
    w.take (b.withReasons reasons) f.code = Record.withReasons { b with results := w.merged r b.results f }
      (reasons ++ if w.faults r f then [.fault f] else []) := by
  rw [merged, ignores_result, faults, ← same]
  cases admitted : w.inMask f.code with
  | false => simp [take, admitted]
  | true =>
    obtain ⟨v, carried⟩ := Option.isSome_iff_exists.mp (Bool.and_eq_true_iff.mp admitted).1
    obtain ⟨x, named, entry⟩ := entry_result carried
    rw [take, admitted, if_pos rfl, entry, Option.elim_some, Entry.apply, carried, namedResult_eq_some named]
    by_cases held : b.results.get f = .fault
    · have unchanged : b.results.set f .fault = b.results := by rw [← held, Results.set_get]
      cases x with
      | none => simp [Record.mergeResult_none, Result.code]
      | done => simp [Record.mergeResult_done_over_fault (r := b.withReasons reasons) held, Result.code, held]
      | fault => simp [Record.mergeResult_fault_again (r := b.withReasons reasons) held, Result.code, held, unchanged]
    · cases x with
      | none => simp [Record.mergeResult_none, Result.code]
      | done =>
        rw [Record.mergeResult_done (r := b.withReasons reasons) held]
        simp [Result.code, held, Record.withReasons]
      | fault => simp [Record.mergeResult_withReasons_fault held, Result.code, held]

end FieldWrite

end Sys2Proof.Machine

/-! PROOFS. A well-formed field list as a whole (R60, R82): the record after all fields, the two sets of ignored fields as
they are answered, and the two write commands: WritesApplyFields (O32). -/

namespace Sys2Proof.Machine

/-! ## The fields in order -/

/-- The result fields in the order a write deals with them. -/
def resultFields : List ResultField := [.cut, .win, .patch, .gum, .fold, .inspect]

theorem fieldOrder_codes : fieldOrder.map Fin.val = [0, 1] ++ resultFields.map ResultField.code ++ [8, 9] := rfl

/-- One more field in a set of fields, if it belongs there. -/
def markIf (f : Nat → Bool) (acc : BitVec 10) (n : Fin 10) : BitVec 10 := if f n.val then acc ||| 1#10 <<< n.val else acc

/-- The set of the fields that `f` names, as a write gathers it. -/
def fieldsOf (f : Nat → Bool) : BitVec 10 := fieldOrder.foldl (markIf f) 0

theorem fieldSetBytes_fieldsOf (f : Nat → Bool) : fieldSetBytes (fieldsOf f) = fieldSet f := by
  have widen : ∀ n : Fin 10, (1#10 <<< n.val).setWidth 16 = 1#16 <<< n.val := by decide
  unfold fieldSetBytes fieldSet fieldsOf
  congr 1
  rw [show List.range 10 = fieldOrder.map Fin.val from rfl, List.foldl_map]
  refine (List.foldl_hom (BitVec.setWidth 16) fun acc n => ?_).symm
  unfold markIf
  split
  · rw [BitVec.setWidth_or, widen]
  · rfl

theorem fieldsOf_eq_zero (f : Nat → Bool) : fieldsOf f = 0 ↔ ∀ n : Fin 10, f n.val = false := by
  have marked : ∀ (ns : List (Fin 10)) (acc : BitVec 10),
      ns.foldl (markIf f) acc = 0 ↔ acc = 0 ∧ ∀ n ∈ ns, f n.val = false := by
    intro ns
    induction ns with
    | nil => simp
    | cons n rest ih =>
      intro acc
      have bit : 1#10 <<< n.val ≠ 0#10 := by revert n; decide
      rw [List.foldl_cons, ih, List.forall_mem_cons, ← and_assoc]
      refine and_congr_left fun _ => ?_
      cases own : f n.val <;> simp +contextual [markIf, own, BitVec.or_eq_zero_iff, bit]
  have all : ∀ n : Fin 10, n ∈ fieldOrder := by decide
  rw [fieldsOf, marked]
  exact ⟨fun h n => h.2 n (all n), fun h => ⟨rfl, fun n _ => h n⟩⟩

namespace FieldWrite

variable (w : FieldWrite) (r : Record)

/-- One field leaves the results of the others. -/
theorem take_get {n : Nat} {f : ResultField} (small : n < 10) (apart : n ≠ f.code) :
    (w.take r n).results.get f = r.results.get f := by
  unfold take
  split
  · cases entry : w.entry n with
    | none => rfl
    | some e => exact Entry.apply_results _ _ _ _ (by rw [entry_field small entry]; exact apart)
  · rfl

theorem ignores_congr {n : Nat} {r' : Record} (small : n < 10)
    (same : ∀ f : ResultField, n = f.code → r'.results.get f = r.results.get f) : w.ignores r' n = w.ignores r n := by
  unfold ignores
  cases entry : w.entry n with
  | none => rfl
  | some e =>
    rw [Option.any_some, Option.any_some, Entry.apply_taken_congr w.port w.tracking w.belowKc e fun f own =>
      same f ((entry_field small entry).symm.trans own)]

/-- A write's work on one field: the record, and the field in the sets where it is ignored. -/
theorem step_entry (n : Fin 10) (x : Written) :
    (w.entry n.val).toList.foldl (Written.step w.port w.mask w.tracking w.belowKc) x =
      ⟨w.take x.record n.val, markIf w.masked x.maskIgnored n, markIf (w.ignores x.record) x.ruleIgnored n⟩ := by
  have carried := entry_isSome (w := w) n.isLt
  cases entry : w.entry n.val with
  | none =>
    rw [entry] at carried
    simp [take, markIf, masked, ignores, inMask, ← carried]
  | some e =>
    rw [entry] at carried
    have code := entry_field n.isLt entry
    rw [Option.toList_some, List.foldl_cons, List.foldl_nil, Written.step, code]
    have inMask : w.inMask n.val = w.mask.getLsbD n.val := by rw [FieldWrite.inMask, ← carried]; rfl
    have masked : w.masked n.val = !w.mask.getLsbD n.val := by rw [FieldWrite.masked, ← carried]; rfl
    rw [take, markIf, markIf, ignores, inMask, masked, entry]
    cases w.mask.getLsbD n.val with
    | false => rfl
    | true => cases taken : (e.apply w.port w.tracking w.belowKc x.record).2 <;> simp [taken]

/-- The fields of a list, one after the other: each is judged as on the record the write found. -/
theorem foldl_step_entry (ns : List (Fin 10)) (nodup : ns.Nodup) (x : Written)
    (same : ∀ n ∈ ns, ∀ f : ResultField, n.val = f.code → x.record.results.get f = r.results.get f) :
    ns.foldl (fun x n => (w.entry n.val).toList.foldl (Written.step w.port w.mask w.tracking w.belowKc) x) x =
      ⟨(ns.map Fin.val).foldl w.take x.record, ns.foldl (markIf w.masked) x.maskIgnored,
        ns.foldl (markIf (w.ignores r)) x.ruleIgnored⟩ := by
  induction ns generalizing x with
  | nil => rfl
  | cons n rest ih =>
    obtain ⟨apart, nodup⟩ := List.nodup_cons.mp nodup
    have judged : markIf (w.ignores x.record) x.ruleIgnored n = markIf (w.ignores r) x.ruleIgnored n := by
      rw [markIf, w.ignores_congr r n.isLt (same n List.mem_cons_self), markIf]
    rw [List.foldl_cons, step_entry, ih nodup, judged]
    · rfl
    · intro m later f own
      refine (w.take_get x.record n.isLt fun h => apart ?_).trans (same m (List.mem_cons_of_mem n later) f own)
      rwa [Fin.ext (h.trans own.symm)]

/-! ## The record after the write -/

theorem merged_get {x : Results} {f g : ResultField} (apart : g ≠ f) : (w.merged r x f).get g = x.get g := by
  unfold merged
  split
  · rw [Results.get_set, if_neg apart]
  · rfl

/-- The result fields one after the other, on a record whose results are those found. -/
theorem foldl_take_results (fs : List ResultField) (nodup : fs.Nodup) (b : Record) (reasons : List Reject)
    (same : ∀ f ∈ fs, b.results.get f = r.results.get f) :
    (fs.map ResultField.code).foldl w.take (b.withReasons reasons) =
      Record.withReasons { b with results := fs.foldl (w.merged r) b.results }
        (reasons ++ (fs.filter (w.faults r)).map Reject.fault) := by
  induction fs generalizing b reasons with
  | nil => simp
  | cons f rest ih =>
    obtain ⟨apart, nodup⟩ := List.nodup_cons.mp nodup
    rw [List.map_cons, List.foldl_cons, w.take_result b r reasons (same f List.mem_cons_self), ih nodup]
    · cases new : w.faults r f <;> simp [new]
    · intro g later
      have other : g ≠ f := fun h => apart (h ▸ later)
      exact (w.merged_get r other).trans (same g (List.mem_cons_of_mem f later))

/-- The reasons to reject a record once the write has been applied, in the order in which they come. -/
def reasons : List Reject :=
  r.reject.toList ++ (if w.inMask 0 && w.belowKc && w.carried 0 == some 2 then [.splice] else [])
    ++ (if w.inMask 0 && w.belowKc && w.carried 0 != some 1 && r.kind == .void && w.tracking == .lost then [.lost] else [])
    ++ (if w.inMask 1 then [.port w.port ⟨((w.carried 1).getD 0).toNat % 16, Nat.mod_lt _ (by decide)⟩] else [])
    ++ (resultFields.filter (w.faults r)).map Reject.fault

/-- The record once the write has been applied. -/
def written : Record := Record.withReasons { r with
  kind := if w.inMask 0 && w.belowKc then
      (if w.carried 0 = some 0 then .blank else if w.carried 0 = some 1 then .void else .splice)
    else r.kind
  results := resultFields.foldl (w.merged r) r.results
  hold := if w.inMask 8 then w.carried 8 == some 1 else r.hold
  note := if w.inMask 9 then (w.carried 9).getD 0 else r.note } (w.reasons r)

theorem foldl_take : (fieldOrder.map Fin.val).foldl w.take r = w.written r := by
  have found : (fieldOrder.map Fin.val).foldl w.take r
      = (fieldOrder.map Fin.val).foldl w.take (r.withReasons r.reject.toList) := by rw [r.withReasons_own]
  rw [found, fieldOrder_codes]
  simp only [List.foldl_append, List.foldl_cons, List.foldl_nil]
  rw [take_kind, take_reject, w.foldl_take_results r resultFields (by decide) _ _ ?found_results, take_hold, take_note]
  · rfl
  case found_results => exact fun _ _ => rfl

/-- What a well-formed field list does. -/
theorem writeFields_eq {es : List RawEntry} {xs : List Entry} (named : namedEntries es = some xs)
    (carried : w.carried = carriedIn es) : writeFields w.port w.mask w.tracking w.belowKc xs r
      = ⟨w.written r, fieldsOf w.masked, fieldsOf (w.ignores r)⟩ := by
  rw [writeFields, inFieldOrder_named named, List.foldl_flatMap, ← carried]
  rw [← foldl_take]
  exact w.foldl_step_entry r fieldOrder (by decide) ⟨r, 0, 0⟩ fun _ _ _ _ => rfl

end FieldWrite

/-! ## The two commands reach the record (R52 to R58) -/

/-- A position is read through a port's window at a local index: the window covers it, upwards or downwards. -/
structure Window.Shows (d : Window) (i pos : Nat) : Prop where
  inside : i < d.length
  up : d.direction = .up → pos = d.base + i
  down : d.direction = .down → pos + i = d.base

theorem Window.Shows.positionOf {d : Window} {i pos : Nat} (h : d.Shows i pos) : d.positionOf i = some pos := by
  unfold Window.positionOf
  split
  · next up => rw [h.up up]
  · next down =>
    have base := h.down down
    rw [if_pos (by omega), ← base, Nat.add_sub_cancel]

theorem Window.Shows.indexOf {d : Window} {i pos : Nat} (h : d.Shows i pos) : d.indexOf pos = some i := by
  have inside := h.inside
  unfold Window.indexOf
  split
  · next up =>
    have place := h.up up
    rw [if_pos (by omega), place, Nat.add_sub_cancel_left]
  · next down =>
    have base := h.down down
    rw [if_pos (by omega), ← base, Nat.add_sub_cancel_left]

section

variable {q : Port} {l pos : Nat} {x : Word} (code : Byte) {i : Nat}

theorem Port.reachIndex_write (stood : (q.reference - x).toNat = pos) (clear : q.fault = .clear)
    (access : q.window.access = .readWrite) (onLine : pos < l) (shows : q.window.Shows i pos) :
    q.reachIndex l true code i = .serial x := by
  have small : pos < 65536 := stood ▸ (q.reference - x).isLt
  have serial : q.serialAt pos = x := ((serial_at_iff _ _ small).mpr stood).symm
  simp [Port.reachIndex, clear, FaultState.isFrozen, access, Access.allows, Nat.not_le.mpr shows.inside, shows.positionOf,
    onLine, serial]

theorem Port.reachSerial_write (stood : (q.reference - x).toNat = pos) (clear : q.fault = .clear)
    (access : q.window.access = .readWrite) (onLine : pos < l) (shows : q.window.Shows i pos) :
    q.reachSerial l true code x = .serial x := by
  have place : q.positionOfSerial x = pos := stood
  simp [Port.reachSerial, clear, FaultState.isFrozen, access, Access.allows, place, shows.indexOf, onLine]

end

/-- A record write whose checks pass looks up the serial, whichever of the two commands it is. -/
theorem exec_write {s : State} {p : PortNum} {i : Byte} {x : Word} {es : List RawEntry} {q : Port} {pos : Nat}
    (init : s.bti ≠ .init) (port : (s.openWrite p).ports.get p = q) (stood : (q.reference - x).toNat = pos)
    (clear : q.fault = .clear) (access : q.window.access = .readWrite) (onLine : pos < s.ttb.l)
    (shows : q.window.Shows i.toNat pos) (short : es.length ≤ maxEntries)
    {c : Instr} (mem : c ∈ [Instr.writeRec p i es, Instr.writeRecSer p x es]) {code : Byte}
    (hcode : code = if c = Instr.writeRec p i es then 0x33 else 0x34) :
    exec c s = .next { (s.openWrite p).writeReached p code (.serial x) es with bti := .idle } := by
  simp only [List.mem_cons, List.not_mem_nil, or_false] at mem
  rcases mem with rfl | rfl
  · rw [if_pos rfl] at hcode
    subst hcode
    show execWriteRec p i es s = _
    rw [execWriteRec, transact_next _ _ _ init, if_neg (Nat.not_lt.mpr short), port, s.openWrite_ttb,
      Port.reachIndex_write _ stood clear access onLine shows]
    rfl
  · rw [if_neg Instr.noConfusion] at hcode
    subst hcode
    show execWriteRecSer p x es s = _
    rw [execWriteRecSer, transact_next _ _ _ init, if_neg (Nat.not_lt.mpr short), port, s.openWrite_ttb,
      Port.reachSerial_write _ stood clear access onLine shows]
    rfl

/-! ## What a write answers (R79 to R82) -/

/-- No field is ignored exactly when each entry's field is in the mask and passes its rule. -/
theorem FieldWrite.nothing_ignored (w : FieldWrite) (r : Record) {es : List RawEntry} (carried : w.carried = carriedIn es) :
    (fieldsOf w.masked = 0 ∧ fieldsOf (w.ignores r) = 0) ↔
      (es.all fun e => w.inMask e.field.toNat && !w.ignores r e.field.toNat) = true := by
  rw [fieldsOf_eq_zero, fieldsOf_eq_zero, ← forall_and, List.all_eq_true]
  constructor
  · intro none_ignored e mem
    have own : (w.carried e.field.toNat).isSome = true := by rw [carried]; exact (carriedIn_isSome es _).mpr ⟨e, mem, rfl⟩
    obtain ⟨masked, ignored⟩ := none_ignored ⟨e.field.toNat, lt_ten own⟩
    rw [FieldWrite.masked, own, Bool.true_and, Bool.not_eq_false'] at masked
    rw [FieldWrite.inMask, own, masked, ignored]
    rfl
  · intro taken n
    cases own : w.carried n.val with
    | none => exact ⟨by simp [FieldWrite.masked, own], ignores_of_absent own⟩
    | some v =>
      obtain ⟨e, mem, code⟩ := (carriedIn_isSome es n.val).mp (by rw [← carried, own]; rfl)
      have both := taken e mem
      rw [code, Bool.and_eq_true, Bool.not_eq_true'] at both
      obtain ⟨admitted, passed⟩ := both
      refine ⟨?_, passed⟩
      simp_all [FieldWrite.inMask, FieldWrite.masked]

/-- The write that a field list in range asks of the record `r`. -/
def State.fieldWrite (s : State) (p : PortNum) (r : Record) (es : List RawEntry)
    (inRange : ∀ e ∈ es, e.value.toNat < valueLimits.getD e.field.toNat 0) : FieldWrite where
  port := p
  mask := (s.ports.get p).mask
  tracking := s.ttb.tracking
  belowKc := decide (r.position s.phu.cycle < s.ttb.kc)
  carried := carriedIn es
  inRange := carriedIn_inRange inRange

section

variable {s : State} {p : PortNum} {code : Byte} {x : Word} {r : Record} {es : List RawEntry}

theorem State.writeReached_unknown (absent : s.ttb.lookup x = none) : s.writeReached p code (.serial x) es
    = s.answer p .unknown code (bytes16 x ++ bytes16 s.phu.cycle) := by
  simp only [State.writeReached, absent]
  rfl

theorem State.writeReached_late (found : s.ttb.lookup x = some r) (departed : r.place = .departed) :
    s.writeReached p code (.serial x) es = s.answer p .late code (bytes16 x ++ bytes16 s.phu.cycle) := by
  simp only [State.writeReached, found, Record.inLine, departed]
  rfl

theorem State.writeReached_found (found : s.ttb.lookup x = some r) (inLine : r.place = .inLine) :
    s.writeReached p code (.serial x) es = s.writeFound p code x r es := by
  simp only [State.writeReached, found, Record.inLine, inLine]
  rfl

theorem State.writeFound_range (bad : ¬ ((es.map fun e => e.field.toNat).Nodup ∧
    ∀ e ∈ es, e.value.toNat < valueLimits.getD e.field.toNat 0)) :
    s.writeFound p code x r es = s.answer p .range code (bytes16 x ++ bytes16 s.phu.cycle) := by
  have unnamed : namedEntries es = none := by
    rw [← namedEntries_isSome] at bad
    exact Option.not_isSome_iff_eq_none.mp bad
  simp only [State.writeFound, unnamed]
  rfl

/-- A well-formed write: one change of the record found, and the answer with the two sets. -/
theorem State.writeFound_written (found : s.ttb.lookup x = some r) (nodup : (es.map fun e => e.field.toNat).Nodup)
    (inRange : ∀ e ∈ es, e.value.toNat < valueLimits.getD e.field.toNat 0) {w : FieldWrite}
    (hw : w = s.fieldWrite p r es inRange) :
    s.writeFound p code x r es = (s.modTable (Ttb.write x w.written)).answer p
      (if es.all fun e => w.inMask e.field.toNat && !w.ignores r e.field.toNat then .ok else .masked) code
      (bytes16 x ++ bytes16 s.phu.cycle ++ fieldSet w.masked ++ fieldSet (w.ignores r)) := by
  have same : s.ttb.write x (fun _ => w.written r) = s.ttb.write x w.written :=
    Ttb.write_congr s.ttb x fun r' found' => by
      rw [found, Option.some.injEq] at found'
      rw [found']
  have carried : w.carried = carriedIn es := by rw [hw]; rfl
  obtain ⟨xs, named⟩ := Option.isSome_iff_exists.mp ((namedEntries_isSome es).mpr ⟨nodup, inRange⟩)
  have applied : writeFields p (s.ports.get p).mask s.ttb.tracking (decide (r.position s.phu.cycle < s.ttb.kc)) xs r
      = ⟨w.written r, fieldsOf w.masked, fieldsOf (w.ignores r)⟩ := by
    rw [← w.writeFields_eq r named carried, hw]
    rfl
  simp only [State.writeFound, named, applied, Written.status, w.nothing_ignored r carried, fieldSetBytes_fieldsOf,
    State.modTable, same]
  rfl

end

/-- The fields ignored by their rule, each by its code (R30, R34, R82). -/
theorem FieldWrite.ignores_eq (w : FieldWrite) (r : Record) : w.ignores r = fun n => w.inMask n && match n with
    | 0 => !w.belowKc
    | 2 => (r.results.get .cut == .fault && w.carried 2 == some 1) || w.carried 2 == some 0
    | 3 => (r.results.get .win == .fault && w.carried 3 == some 1) || w.carried 3 == some 0
    | 4 => (r.results.get .patch == .fault && w.carried 4 == some 1) || w.carried 4 == some 0
    | 5 => (r.results.get .gum == .fault && w.carried 5 == some 1) || w.carried 5 == some 0
    | 6 => (r.results.get .fold == .fault && w.carried 6 == some 1) || w.carried 6 == some 0
    | 7 => (r.results.get .inspect == .fault && w.carried 7 == some 1) || w.carried 7 == some 0
    | _ => false := by
  funext n
  match n with
  | 0 => exact w.ignores_kind r
  | 1 => exact (w.ignores_reject r).trans (Bool.and_false _).symm
  | 2 => exact w.ignores_result r .cut
  | 3 => exact w.ignores_result r .win
  | 4 => exact w.ignores_result r .patch
  | 5 => exact w.ignores_result r .gum
  | 6 => exact w.ignores_result r .fold
  | 7 => exact w.ignores_result r .inspect
  | 8 => exact (w.ignores_hold r).trans (Bool.and_false _).symm
  | 9 => exact (w.ignores_note r).trans (Bool.and_false _).symm
  | m + 10 => exact (w.ignores_of_ten_le r (Nat.le_add_left 10 m)).trans (Bool.and_false _).symm

/-- Settles O32: both commands look the serial up, and an IN_LINE record found takes a well-formed list as one
`FieldWrite`. -/
theorem writesApplyFields : Obligations.WritesApplyFields := by
  rintro s p i x y es q pos r carried inMask faults init rfl stood access clear onLine inside up down short
    hcarried hinMask hfaults c mem code hcode
  rw [exec_write init rfl stood.symm clear access onLine ⟨inside, up, down⟩ short mem hcode,
    ← s.openWrite_ttb p, ← s.openWrite_phu p]
  clear init stood access clear onLine inside up down short mem hcode
  generalize s.openWrite p = u at hinMask ⊢
  refine ⟨fun absent => ?_, fun found departed => ?_, fun found inLine bad => ?_, fun found inLine nodup inRange => ?_⟩
  · rw [State.writeReached_unknown absent]
    rfl
  · rw [State.writeReached_late found departed]
    rfl
  · rw [State.writeReached_found found inLine, State.writeFound_range bad]
    rfl
  · intro belowKc hbelowKc ruleIgnored hruleIgnored reasons hreasons
    obtain ⟨w, hw⟩ : ∃ w, w = u.fieldWrite p r es inRange := ⟨_, rfl⟩
    have below : belowKc = w.belowKc := by rw [hbelowKc, ← Ttb.lookup_serial found, hw]; rfl
    have carries : carried = w.carried := by rw [hcarried, hw]; rfl
    have admits : inMask = w.inMask := by rw [hinMask, carries, hw]; rfl
    have masked : (fun n => (carried n).isSome && !(u.ports.get p).mask.getLsbD n) = w.masked := by rw [carries, hw]; rfl
    have ignored : ruleIgnored = w.ignores r := by
      rw [hruleIgnored, admits, carries, below]
      exact (w.ignores_eq r).symm
    have faulted : faults = (resultFields.filter (w.faults r)).map .fault := by rw [hfaults, admits, carries]; rfl
    have rejected : reasons = w.reasons r := by
      rw [hreasons, faulted, admits, carries, below, hw]
      rfl
    rw [State.writeReached_found found inLine, State.writeFound_written found nodup inRange hw]
    subst below carries admits ignored rejected
    rw [masked]
    refine completes_next ⟨rfl, Ttb.write_frame u.ttb x w.written, fun other => ?_, ?_⟩
    · exact (Ttb.lookup_write u.ttb x y w.written fun _ => rfl).trans (if_neg other)
    · refine (Ttb.lookup_write u.ttb x x w.written fun _ => rfl).trans ?_
      rw [if_pos rfl, found]
      rfl

end Sys2Proof.Machine

/-! PROOFS. What the commands of one port are: transactions whose work does not see the bus and spares every other port.
WriteAddressLatches (O11), InitTakesNoTransaction (O7) and PortsKeptApart (O36). -/

namespace Sys2Proof.Machine

/-! ## Work that does not see the bus (R171) -/

/-- The part with its Bus Target Interface in the state `b`. -/
def State.withBus (b : Bti) (s : State) : State := { s with bti := b }

section

variable (b : Bti) (s : State)

@[simp] theorem State.withBus_phu : (s.withBus b).phu = s.phu := rfl
@[simp] theorem State.withBus_ttb : (s.withBus b).ttb = s.ttb := rfl
@[simp] theorem State.withBus_ports : (s.withBus b).ports = s.ports := rfl
@[simp] theorem State.withBus_chans : (s.withBus b).chans = s.chans := rfl
@[simp] theorem State.withBus_bfu : (s.withBus b).bfu = s.bfu := rfl

@[simp] theorem State.modPort_withBus (p : PortNum) (f : Port → Port) :
    (s.withBus b).modPort p f = (s.modPort p f).withBus b := rfl
@[simp] theorem State.modChan_withBus (k : ChanNum) (f : Channel → Channel) :
    (s.withBus b).modChan k f = (s.modChan k f).withBus b := rfl
@[simp] theorem State.modTable_withBus (f : Ttb → Ttb) : (s.withBus b).modTable f = (s.modTable f).withBus b := rfl
@[simp] theorem State.modPhu_withBus (f : Phu → Phu) : (s.withBus b).modPhu f = (s.modPhu f).withBus b := rfl
@[simp] theorem State.modBfu_withBus (f : Bfu → Bfu) : (s.withBus b).modBfu f = (s.modBfu f).withBus b := rfl
@[simp] theorem State.raise_withBus (e : Event) : (s.withBus b).raise e = (s.raise e).withBus b := rfl
@[simp] theorem State.raiseTo_withBus (p : PortNum) (e : Event) :
    (s.withBus b).raiseTo p e = (s.raiseTo p e).withBus b := rfl
@[simp] theorem State.raiseIf_withBus (c : Bool) (e : Event) :
    (s.withBus b).raiseIf c e = (s.raiseIf c e).withBus b := by
  cases c <;> rfl
@[simp] theorem State.answer_withBus (p : PortNum) (st : Status) (code : Byte) (bs : List Byte) :
    (s.withBus b).answer p st code bs = (s.answer p st code bs).withBus b := rfl

@[simp] theorem State.fault_withBus (p : PortNum) (f : FaultRecord) :
    (s.withBus b).fault p f = (s.fault p f).withBus b := by
  unfold State.fault
  cases h : (s.ports.get p).fault.isFrozen <;> simp [h]

@[simp] theorem State.arm_withBus (k : ChanNum) (x : Count) : (s.withBus b).arm k x = (s.arm k x).withBus b := by
  simp [State.arm]

@[simp] theorem State.settlePair_withBus (k : ChanNum) :
    (s.withBus b).settlePair k = (s.settlePair k).withBus b := by
  unfold State.settlePair
  split <;> rfl

@[simp] theorem State.applyPending_withBus (k : ChanNum) :
    (s.withBus b).applyPending k = (s.applyPending k).withBus b := by
  unfold State.applyPending
  cases h : (s.chans.get k).pending <;> simp [h]

@[simp] theorem State.cutPulse_withBus (after : ChanState) (k : ChanNum) :
    (s.withBus b).cutPulse after k = (s.cutPulse after k).withBus b := by
  unfold State.cutPulse
  cases h : (s.chans.get k).state.pulse <;> simp [h]

theorem State.cutPulses_withBus (after : ChanState) (ks : List ChanNum) :
    ks.foldl (State.cutPulse after) (s.withBus b) = (ks.foldl (State.cutPulse after) s).withBus b := by
  induction ks generalizing s with
  | nil => rfl
  | cons k rest ih => simp [ih]

@[simp] theorem State.beginInhibition_withBus : (s.withBus b).beginInhibition = s.beginInhibition.withBus b := by
  have cuts : (s.withBus b).cutAll = s.cutAll.withBus b :=
    State.cutPulses_withBus b { s with chans := s.chans.map Channel.enterSpell } .waiting s.cutOrder
  rw [State.beginInhibition_eq, State.beginInhibition_eq, cuts]
  rfl

@[simp] theorem State.takeLine_withBus (l kc counts t : Nat) :
    (s.withBus b).takeLine l kc counts t = (s.takeLine l kc counts t).withBus b := by
  unfold State.takeLine
  by_cases h : counts = s.phu.p
  · simp [h]
  · simp only [h, State.modTable_withBus, State.modPhu_withBus, State.modPhu_phu, State.modTable_phu, State.withBus_phu,
      State.beginInhibition_withBus, if_false]
    rfl

@[simp] theorem State.storeConfig_withBus (k : ChanNum) (c : ChanConfig) :
    (s.withBus b).storeConfig k c = (s.storeConfig k c).withBus b := by
  unfold State.storeConfig
  cases h : (s.chans.get k).state <;> simp [h]

@[simp] theorem State.enable_withBus (k : ChanNum) : (s.withBus b).enable k = (s.enable k).withBus b := by
  unfold State.enable
  cases h : s.phu.presented <;> simp [h]

@[simp] theorem State.disable_withBus (k : ChanNum) : (s.withBus b).disable k = (s.disable k).withBus b := by
  unfold State.disable
  cases h : (s.chans.get k).state <;> simp [h]

@[simp] theorem State.placeBatchEnd_withBus : (s.withBus b).placeBatchEnd = s.placeBatchEnd.withBus b := by
  unfold State.placeBatchEnd
  cases h : s.bfu.openBatch.lastInStack <;> simp [h]

@[simp] theorem State.closeBatch_withBus (short forced : Bool) (next : JobNum) :
    (s.withBus b).closeBatch short forced next = (s.closeBatch short forced next).withBus b := by
  simp [State.closeBatch]

end

/-! ## Work that spares a port (R47) -/

/-- From `s` to `t` the port `q` keeps its configuration, reference cycle, fault record, buffer, snapshot and enable set, none
of its requests is lost, and FAULT is not raised to it. -/
structure State.Spares (q : PortNum) (s t : State) : Prop where
  port : t.ports.get q = s.ports.get q
  snapshot : t.phu.snapshots.get q = s.phu.snapshots.get q
  enable : (t.events.get q).enable = (s.events.get q).enable
  keeps : ∀ e, s.requested q e = true → t.requested q e = true
  fault : t.requested q .fault = s.requested q .fault

namespace State.Spares

variable {p q : PortNum} {s t u : State}

theorem trans (h : s.Spares q t) (g : t.Spares q u) : s.Spares q u where
  port := g.port.trans h.port
  snapshot := g.snapshot.trans h.snapshot
  enable := g.enable.trans h.enable
  keeps e x := g.keeps e (h.keeps e x)
  fault := g.fault.trans h.fault

/-- Work that leaves what stands at the port's number. -/
theorem of_get (port : t.ports.get q = s.ports.get q) (snapshot : t.phu.snapshots.get q = s.phu.snapshots.get q)
    (events : t.events.get q = s.events.get q) : s.Spares q t := by
  have requested (e : Event) : t.requested q e = s.requested q e := by rw [State.requested, events, State.requested]
  exact ⟨port, snapshot, by rw [events], fun e x => by rwa [requested], requested .fault⟩

/-- Work that leaves every port, every snapshot and every event. -/
theorem of_eq (ports : t.ports = s.ports := by rfl) (snapshots : t.phu.snapshots = s.phu.snapshots := by rfl)
    (events : t.events = s.events := by rfl) : s.Spares q t :=
  of_get (by rw [ports]) (by rw [snapshots]) (by rw [events])

theorem refl (s : State) : s.Spares q s := of_eq

/-- Work that raises events, FAULT not among them, to all ports. -/
theorem of_raises {es : List Event} (r : State.Raises es s t) (noFault : Event.fault ∉ es) (ports : t.ports = s.ports)
    (snapshots : t.phu.snapshots = s.phu.snapshots) (enables : ∀ p, (t.events.get p).enable = (s.events.get p).enable) :
    s.Spares q t where
  port := by rw [ports]
  snapshot := by rw [snapshots]
  enable := enables q
  keeps := r.keeps q
  fault := r.only q .fault noFault

theorem of_channelWork (h : s.ChannelWork t) (r : State.Raises channelEvents s t) : s.Spares q t :=
  of_raises r (by decide) h.ports (congrArg Phu.snapshots h.phu) h.enables

theorem of_batchWork (h : s.BatchWork t) (r : State.Raises batchEvents s t) : s.Spares q t :=
  of_raises r (by decide) h.ports (congrArg Phu.snapshots h.phu) h.enables

/-- A change of one port spares every other. -/
theorem modPort (h : s.Spares q t) (other : q ≠ p) (f : Port → Port) : s.Spares q (t.modPort p f) :=
  { h with port := (Bank.get_modify_ne t.ports f other).trans h.port }

theorem answer (h : s.Spares q t) (other : q ≠ p) (st : Status) (code : Byte) (bs : List Byte) :
    s.Spares q (t.answer p st code bs) := h.modPort other _

/-- An answer after work that leaves every port, every snapshot and every event. -/
theorem answered (other : q ≠ p) (st : Status) (code : Byte) (bs : List Byte) (ports : t.ports = s.ports := by rfl)
    (snapshots : t.phu.snapshots = s.phu.snapshots := by rfl) (events : t.events = s.events := by rfl) :
    s.Spares q (t.answer p st code bs) := (of_eq ports snapshots events).answer other st code bs

theorem setSnapshot (h : s.Spares q t) (other : q ≠ p) (x : Option Snapshot) : s.Spares q (t.setSnapshot p x) :=
  { h with snapshot := (Bank.get_put_ne t.phu.snapshots x other).trans h.snapshot }

/-- Event sets given to one port spare every other. -/
theorem setEventSets (h : s.Spares q t) (other : q ≠ p) (x : EventSets) : s.Spares q (t.setEventSets p x) :=
  h.trans (of_get rfl rfl (Bank.get_put_ne t.events x other))

/-- A fault is captured by its own port, and FAULT raised to that port alone (R61). -/
theorem of_fault (other : q ≠ p) (f : FaultRecord) : s.Spares q (s.fault p f) := by
  refine of_get ?_ (by rw [State.fault_frame]) ?_
  · rw [State.fault_get, if_neg other]
  · rw [State.fault_events]
    split
    · rfl
    · exact Bank.get_modify_ne _ _ other

theorem openWrite (other : q ≠ p) : s.Spares q (s.openWrite p) := by
  unfold State.openWrite
  split
  · exact of_eq
  · exact State.Spares.modPort of_eq other _

end State.Spares

/-! ## The work of a port's command -/

/-- `body` is work for port `p` alone, or for `p` and the port that `named` names: it does not see the bus, and it spares every
other port. -/
structure PortWork (p : PortNum) (named : Option Byte) (body : State → State) : Prop where
  blind : ∀ b s, body (s.withBus b) = (body s).withBus b
  spares : ∀ (s : State) q, q ≠ p → (∀ n ∈ named, n.toNat ≠ q.val) → s.Spares q (body s)

section

variable {p : PortNum}

/-- Work that needs a privilege is work for its port whether it is refused or not (R48). -/
theorem PortWork.privileged {named : Option Byte} {body : State → State} (h : PortWork p named body) (code : Byte)
    (allowed : State → Bool) (blind : ∀ b s, allowed (s.withBus b) = allowed s := by intros; rfl) :
    PortWork p named fun s => s.privileged p code (allowed s) body where
  blind b s := by
    rw [blind]
    cases allowed s
    · exact State.fault_withBus b s p _
    · exact h.blind b s
  spares s q other unnamed := by
    cases allowed s
    · exact .of_fault other _
    · exact h.spares s q other unnamed

theorem PortWork.setup {named : Option Byte} {body : State → State} (h : PortWork p named body) (code : Byte) :
    PortWork p named fun s => s.privileged p code (s.hasSetup p) body :=
  h.privileged code fun s => s.hasSetup p

/-- A command that only answers. -/
theorem PortWork.answer (st : Status) (code : Byte) (bs : State → List Byte)
    (blind : ∀ b s, bs (s.withBus b) = bs s := by intros; rfl) :
    PortWork p none fun s => s.answer p st code (bs s) where
  blind b s := by rw [blind, State.answer_withBus]
  spares _ _ other _ := .answered other st code _

/-! ### Phase and line commands -/

theorem State.capture_portWork :
    PortWork p none fun s => (s.setSnapshot p (some s.snapshot)).answer p .ok Code.capture [] where
  blind _ _ := rfl
  spares s _ other _ := ((State.Spares.refl s).setSnapshot other _).answer other _ _ _

theorem State.readSnapshot_portWork : PortWork p none fun s => match s.phu.snapshots.get p with
    | none => s.answer p .nothing Code.readSnapshot []
    | some x => s.answer p .ok Code.readSnapshot x.bytes where
  blind b s := by
    rw [State.withBus_phu]
    cases s.phu.snapshots.get p <;> rfl
  spares s q other _ := by
    split
    · exact .answered other _ _ _
    · exact .answered other _ _ _

theorem State.purge_portWork : PortWork p none (State.purge p) where
  blind _ _ := rfl
  spares _ _ other _ := .answered other _ _ _

theorem State.rejectRange_portWork (a b : Nat) : PortWork p none (State.rejectRange p a b) where
  blind _ s := by
    unfold State.rejectRange
    split <;> rfl
  spares s q other _ := by
    unfold State.rejectRange
    split
    · exact .answered other _ _ _
    · exact .answered other _ _ _

theorem State.resync_portWork : PortWork p none fun s =>
    (s.modTable fun t => { t with tracking := .ready }).answer p .ok Code.resync [] where
  blind _ _ := rfl
  spares _ _ other _ := .answered other _ _ _

theorem State.takeLine_spares (l kc counts t : Nat) (s : State) (q : PortNum) : s.Spares q (s.takeLine l kc counts t) := by
  unfold State.takeLine
  dsimp only
  split
  · exact .of_eq
  · have begun (u : State) : u.Spares q u.beginInhibition :=
      .of_channelWork u.beginInhibition_channelWork u.beginInhibition_raises
    have set : s.Spares q (((s.modTable (Ttb.setLine l kc)).modPhu
      fun u => { u with t := min t toleranceLimit }).modPhu (Phu.setCounts counts)) := .of_eq
    exact (set.trans (begun _)).trans .of_eq

theorem State.setLine_portWork (l kc counts t : Nat) : PortWork p none (State.setLine p l kc counts t) where
  blind b s := by
    have operands : (s.withBus b).lineOperandsOk l kc counts = s.lineOperandsOk l kc counts := rfl
    have idle : (s.withBus b).lineIdle = s.lineIdle := rfl
    unfold State.setLine
    rw [operands, idle, State.takeLine_withBus]
    split
    · rfl
    · split <;> rfl
  spares s q other _ := by
    unfold State.setLine
    split
    · exact .answered other _ _ _
    · split
      · exact .answered other _ _ _
      · exact (s.takeLine_spares l kc counts t q).answer other _ _ _

/-! ### Record access -/

theorem State.readReached_withBus (code : Byte) (reach : Reach) (b : Bti) (s : State) :
    (s.withBus b).readReached p code reach = (s.readReached p code reach).withBus b := by
  cases reach with
  | frozen => rfl
  | fault f => exact State.fault_withBus b s p f
  | serial x =>
    unfold State.readReached
    rw [State.withBus_ttb]
    dsimp only
    cases s.ttb.lookup x <;> rfl

theorem State.readReached_spares (code : Byte) (reach : Reach) (s : State) {q : PortNum} (other : q ≠ p) :
    s.Spares q (s.readReached p code reach) := by
  cases reach with
  | frozen => exact .answered other _ _ _
  | fault f => exact .of_fault other f
  | serial x =>
    unfold State.readReached
    dsimp only
    split
    · exact .answered other _ _ _
    · exact .answered other _ _ _

theorem State.readReached_portWork (code : Byte) (reach : State → Reach)
    (blind : ∀ b s, reach (s.withBus b) = reach s := by intros; rfl) :
    PortWork p none fun s => s.readReached p code (reach s) where
  blind b s := by rw [blind, State.readReached_withBus]
  spares s _ other _ := s.readReached_spares code _ other

theorem State.readWindow_portWork : PortWork p none fun s =>
    if (s.ports.get p).window.access.allows false then s.answer p .ok Code.readWindow (s.windowPayload p)
    else s.fault p ⟨.access, Code.readWindow, none, none, none, (s.ports.get p).reference⟩ where
  blind b s := by
    rw [State.withBus_ports, State.fault_withBus]
    split <;> rfl
  spares s q other _ := by
    split
    · exact .answered other _ _ _
    · exact .of_fault other _

theorem State.writeReached_withBus (code : Byte) (reach : Reach) (entries : List RawEntry) (b : Bti) (s : State) :
    (s.withBus b).writeReached p code reach entries = (s.writeReached p code reach entries).withBus b := by
  cases reach with
  | frozen => rfl
  | fault f => exact State.fault_withBus b s p f
  | serial x =>
    unfold State.writeReached
    rw [State.withBus_ttb]
    dsimp only
    cases s.ttb.lookup x with
    | none => rfl
    | some r =>
      dsimp only
      cases r.inLine with
      | false => rfl
      | true =>
        show (s.withBus b).writeFound p code x r entries = (s.writeFound p code x r entries).withBus b
        unfold State.writeFound
        cases namedEntries entries <;> rfl

theorem State.writeReached_spares (code : Byte) (reach : Reach) (entries : List RawEntry) (s : State) {q : PortNum}
    (other : q ≠ p) : s.Spares q (s.writeReached p code reach entries) := by
  cases reach with
  | frozen => exact .answered other _ _ _
  | fault f => exact .of_fault other f
  | serial x =>
    unfold State.writeReached
    dsimp only
    split
    · exact .answered other _ _ _
    · split
      · unfold State.writeFound
        split
        · exact .answered other _ _ _
        · exact .answered other _ _ _
      · exact .answered other _ _ _

theorem State.writeOrShort_portWork (code : Byte) (reach : State → Reach) (entries : List RawEntry)
    (blind : ∀ b s, reach (s.withBus b) = reach s := by intros; rfl) :
    PortWork p none fun s => if maxEntries < entries.length then s.answer p .short code []
      else s.writeReached p code (reach s) entries where
  blind b s := by
    rw [blind, State.writeReached_withBus]
    split <;> rfl
  spares s q other _ := by
    split
    · exact .answered other _ _ _
    · exact s.writeReached_spares code _ entries other

/-! ### Port commands (R64 to R70) -/

/-- The port a byte names has the byte's number. -/
theorem namedPort_val {n : Byte} {t : PortNum} (h : namedPort n = some t) : t.val = n.toNat := by
  unfold namedPort at h
  split at h
  · cases h; rfl
  · cases h

/-- A port whose number a byte does not have is not the one it names. -/
theorem ne_namedPort {n : Byte} {q t : PortNum} (h : namedPort n = some t) (unnamed : ∀ m ∈ some n, m.toNat ≠ q.val) :
    q ≠ t := by
  rintro rfl
  exact unnamed n rfl (namedPort_val h).symm

theorem State.setPort_portWork (target pr base length dirAccess : Byte) (mask : Word) :
    PortWork p (some target) (State.setPort p target pr base length dirAccess mask) where
  blind b s := by
    unfold State.setPort
    split <;> rfl
  spares s q other unnamed := by
    unfold State.setPort
    split
    · next named _ _ _ =>
      exact ((State.Spares.refl s).modPort (ne_namedPort named unnamed) _).answer other _ _ _
    · exact .answered other _ _ _

/-- A command that answers with what it reads of a named port. -/
theorem State.readNamed_portWork (code : Byte) (target : Byte) (bs : State → PortNum → List Byte)
    (blind : ∀ b s, bs (s.withBus b) = bs s := by intros; rfl) :
    PortWork p none fun s => match namedPort target with
      | none => s.answer p .range code []
      | some t => s.answer p .ok code (bs s t) where
  blind b s := by
    rw [blind]
    cases namedPort target <;> rfl
  spares s q other _ := by
    split
    · exact .answered other _ _ _
    · exact .answered other _ _ _

theorem State.clearFault_portWork : PortWork p none fun s =>
    (s.modPort p fun q => { q with fault := .clear }).answer p .ok Code.clearFault [] where
  blind _ _ := rfl
  spares s _ other _ := ((State.Spares.refl s).modPort other _).answer other _ _ _

theorem State.resetPort_spares (s : State) {t q : PortNum} (other : q ≠ t) : s.Spares q (s.resetPort t) :=
  (((State.Spares.refl s).modPort other _).setSnapshot other none).setEventSets other ⟨0, 0⟩

theorem State.portReset_portWork (target : Byte) : PortWork p (some target) (State.portReset p target) where
  blind b s := by
    unfold State.portReset
    cases namedPort target with
    | none => rfl
    | some t => dsimp only; split <;> rfl
  spares s q other unnamed := by
    unfold State.portReset
    split
    · exact .answered other _ _ _
    · next named =>
      have spared := s.resetPort_spares (ne_namedPort named unnamed)
      split
      · exact spared
      · exact spared.answer other _ _ _

/-! ### Channel commands -/

theorem State.storeConfig_raises (k : ChanNum) (c : ChanConfig) (s : State) :
    State.Raises channelEvents s (s.storeConfig k c) := by
  unfold State.storeConfig
  split
  · exact .of_events (State.settlePair_events _ k)
  · exact .of_events (State.settlePair_events _ k)
  · exact (State.arm_raises _ k _).after (State.settlePair_events _ k)
  · exact .of_events (State.settlePair_events _ k)

theorem State.enable_raises (k : ChanNum) (s : State) : State.Raises channelEvents s (s.enable k) := by
  unfold State.enable
  split
  · exact (State.arm_raises _ k _).after rfl
  · exact .of_events rfl

theorem State.disable_raises (k : ChanNum) (s : State) : State.Raises channelEvents s (s.disable k) := by
  unfold State.disable
  split
  · exact .refl _ s
  · exact .refl _ s
  · exact .of_events rfl
  · exact .of_events rfl
  · exact State.cutPulse_raises _ s k
  · exact State.cutPulse_raises _ s k

theorem State.setChannel_portWork (channel : Byte) (raw : RawConfig) :
    PortWork p none (State.setChannel p channel raw) where
  blind b s := by
    unfold State.setChannel
    cases namedChan channel with
    | none => rfl
    | some k =>
      dsimp only [State.withBus_ttb, State.withBus_phu]
      cases namedConfig s.ttb.l s.phu.p (!isEven k) raw with
      | none => rfl
      | some c =>
        have pair : (s.withBus b).pairAllows k c = s.pairAllows k c := rfl
        dsimp only
        rw [pair, State.storeConfig_withBus]
        split <;> rfl
  spares s q other _ := by
    unfold State.setChannel
    split
    · exact .answered other _ _ _
    · split
      · exact .answered other _ _ _
      · split
        · exact (State.Spares.of_channelWork (s.storeConfig_channelWork _ _) (s.storeConfig_raises _ _)).answer other _ _ _
        · exact .answered other _ _ _

theorem State.enableChannel_portWork (channel : Byte) : PortWork p none (State.enableChannel p channel) where
  blind b s := by
    unfold State.enableChannel
    cases namedChan channel with
    | none => rfl
    | some k =>
      dsimp only
      rw [State.withBus_chans, State.enable_withBus]
      cases (s.chans.get k).state <;> rfl
  spares s q other _ := by
    unfold State.enableChannel
    split
    · exact .answered other _ _ _
    · split
      · exact .answered other _ _ _
      · exact (State.Spares.of_channelWork (s.enable_channelWork _) (s.enable_raises _)).answer other _ _ _
      · exact .answered other _ _ _

theorem State.disableChannel_portWork (channel : Byte) : PortWork p none (State.disableChannel p channel) where
  blind b s := by
    unfold State.disableChannel
    cases namedChan channel with
    | none => rfl
    | some k =>
      dsimp only
      rw [State.disable_withBus]
      rfl
  spares s q other _ := by
    unfold State.disableChannel
    split
    · exact .answered other _ _ _
    · exact (State.Spares.of_channelWork (s.disable_channelWork _) (s.disable_raises _)).answer other _ _ _

theorem State.readChannel_portWork (channel : Byte) : PortWork p none fun s => match namedChan channel with
    | none => s.answer p .range Code.readChannel []
    | some k => (s.answer p .ok Code.readChannel
        ((s.chans.get k).bytes k (unreadField s.frees false) (unreadField s.frees true))).chose where
  blind b s := by cases namedChan channel <;> rfl
  spares s q other _ := by
    split
    · exact .answered other _ _ _
    · exact (State.Spares.answered other _ _ _).trans .of_eq

/-! ### Jobs, batches and events -/

theorem State.setJob_portWork (slot : Byte) (order : BitVec 24) (size quota : Word) :
    PortWork p none (State.setJob p slot order size quota) where
  blind b s := by
    unfold State.setJob
    cases namedJob slot with
    | none => rfl
    | some j =>
      have used : (s.withBus b).jobInUse j = s.jobInUse j := rfl
      dsimp only
      rw [used]
      split
      · rfl
      · split <;> rfl
  spares s q other _ := by
    unfold State.setJob
    split
    · exact .answered other _ _ _
    · split
      · exact .answered other _ _ _
      · split
        · exact .answered other _ _ _
        · exact .answered other _ _ _

theorem State.setBatchSize_portWork (slot : Byte) (size : Word) : PortWork p none (State.setBatchSize p slot size) where
  blind b s := by
    unfold State.setBatchSize
    cases namedJob slot with
    | none => rfl
    | some j =>
      dsimp only
      rw [State.withBus_bfu]
      split <;> rfl
  spares s q other _ := by
    unfold State.setBatchSize
    split
    · exact .answered other _ _ _
    · split
      · exact .answered other _ _ _
      · exact .answered other _ _ _

theorem State.switchJob_portWork (slot : Byte) : PortWork p none (State.switchJob p slot) where
  blind b s := by
    unfold State.switchJob
    cases namedJob slot with
    | none => rfl
    | some j =>
      dsimp only
      rw [State.withBus_bfu]
      cases (s.bfu.jobs.get j).defined <;> rfl
  spares s q other _ := by
    unfold State.switchJob
    split
    · exact .answered other _ _ _
    · split
      · exact .answered other _ _ _
      · exact .answered other _ _ _

theorem State.readJob_portWork (slot : Byte) : PortWork p none fun s => match namedJob slot with
    | none => s.answer p .range Code.readJob []
    | some j => s.answer p .ok Code.readJob (s.jobBytes j) where
  blind b s := by cases namedJob slot <;> rfl
  spares s q other _ := by
    split
    · exact .answered other _ _ _
    · exact .answered other _ _ _

theorem State.forceClose_portWork : PortWork p none (State.forceClose p) where
  blind b s := by
    unfold State.forceClose
    dsimp only
    rw [State.placeBatchEnd_withBus, State.withBus_bfu, State.closeBatch_withBus]
    split
    · rfl
    · split <;> rfl
  spares s q other _ := by
    unfold State.forceClose
    dsimp only
    split
    · exact .answered other _ _ _
    · split
      · exact (State.Spares.of_batchWork (s.placeBatchEnd_batchWork.trans (State.closeBatch_batchWork _ _ _ _))
          ((State.closeBatch_raises _ _ _ _).after s.placeBatchEnd_events)).answer other _ _ _
      · exact .answered other _ _ _

theorem State.readBatch_portWork (entry : Byte) : PortWork p none fun s => match s.bfu.queue[entry.toNat]? with
    | none => s.answer p .range Code.readBatch []
    | some b => s.answer p .ok Code.readBatch (byteOf s.bfu.queue.length :: b.bytes) where
  blind b s := by
    rw [State.withBus_bfu]
    cases s.bfu.queue[entry.toNat]? <;> rfl
  spares s q other _ := by
    split
    · exact .answered other _ _ _
    · exact .answered other _ _ _

theorem State.pop_portWork : PortWork p none (State.pop p) where
  blind b s := by
    unfold State.pop
    rw [State.withBus_bfu]
    cases s.bfu.queue <;> rfl
  spares s q other _ := by
    unfold State.pop
    split
    · exact .answered other _ _ _
    · exact .answered other _ _ _

/-- A command that gives its own port new event sets and answers (R163, R164). -/
theorem State.storeEvents_portWork (code : Byte) (events : Word) (sets : State → EventSet → EventSets)
    (bs : State → EventSet → List Byte) (sets_blind : ∀ b s, sets (s.withBus b) = sets s := by intros; rfl)
    (bs_blind : ∀ b s, bs (s.withBus b) = bs s := by intros; rfl) :
    PortWork p none fun s => match namedEvents events with
      | none => s.answer p .range code []
      | some x => (s.setEventSets p (sets s x)).answer p .ok code (bs s x) where
  blind b s := by
    rw [sets_blind, bs_blind]
    cases namedEvents events <;> rfl
  spares s q other _ := by
    split
    · exact .answered other _ _ _
    · exact ((State.Spares.refl s).setEventSets other _).answer other _ _ _

end

/-! ### Every command of a port -/

/-- A port's command is a transaction on its port, with work for that port and for the port it names. -/
theorem exec_portWork {c : Instr} {p : PortNum} (h : c.port = some p) :
    ∃ body, (∀ s, exec c s = transact p body s) ∧ PortWork p c.namesPort body := by
  cases c with cases h
  | unknownCmd => exact ⟨_, fun _ => rfl, .answer .unknownCmd _ fun _ => []⟩
  | short => exact ⟨_, fun _ => rfl, .answer .short _ fun _ => []⟩
  | readPhase => exact ⟨_, fun _ => rfl, .answer .ok Code.readPhase fun s => phaseBytes s.phu s.ttb.tracking⟩
  | capture => exact ⟨_, fun _ => rfl, State.capture_portWork⟩
  | readSnapshot => exact ⟨_, fun _ => rfl, State.readSnapshot_portWork⟩
  | purge => exact ⟨_, fun _ => rfl, State.purge_portWork.setup Code.purge⟩
  | rejectRange => exact ⟨_, fun _ => rfl, (State.rejectRange_portWork _ _).setup Code.rejectRange⟩
  | resync => exact ⟨_, fun _ => rfl, State.resync_portWork.setup Code.resync⟩
  | setLine => exact ⟨_, fun _ => rfl, (State.setLine_portWork _ _ _ _).setup Code.setLine⟩
  | readLine =>
    exact ⟨_, fun _ => rfl, .answer .ok Code.readLine fun s => [byteOf s.ttb.l, byteOf s.ttb.kc, s.ttb.tracking.code]
      ++ bytes16 s.phu.cycle ++ [byteOf (s.ttb.countRecords Record.inLine)]⟩
  | readRec _ index =>
    exact ⟨_, fun _ => rfl, State.readReached_portWork Code.readRec
      fun s => (s.ports.get p).reachIndex s.ttb.l false Code.readRec index.toNat⟩
  | readRecSer _ serial =>
    exact ⟨_, fun _ => rfl, State.readReached_portWork Code.readRecSer
      fun s => (s.ports.get p).reachSerial s.ttb.l false Code.readRecSer serial⟩
  | readWindow => exact ⟨_, fun _ => rfl, State.readWindow_portWork⟩
  | writeRec _ index entries =>
    exact ⟨_, fun _ => rfl, State.writeOrShort_portWork Code.writeRec
      (fun s => (s.ports.get p).reachIndex s.ttb.l true Code.writeRec index.toNat) entries⟩
  | writeRecSer _ serial entries =>
    exact ⟨_, fun _ => rfl, State.writeOrShort_portWork Code.writeRecSer
      (fun s => (s.ports.get p).reachSerial s.ttb.l true Code.writeRecSer serial) entries⟩
  | setPort => exact ⟨_, fun _ => rfl, (State.setPort_portWork _ _ _ _ _ _).setup Code.setPort⟩
  | readPort _ target =>
    exact ⟨_, fun _ => rfl, State.readNamed_portWork Code.readPort target fun s t => (s.ports.get t).bytes t⟩
  | readFault _ target =>
    exact ⟨_, fun _ => rfl, State.readNamed_portWork Code.readFault target fun s t => (s.ports.get t).fault.bytes t⟩
  | clearFault => exact ⟨_, fun _ => rfl, State.clearFault_portWork⟩
  | portReset _ target =>
    exact ⟨_, fun _ => rfl, (State.portReset_portWork target).privileged Code.portReset
      fun s => namedPort target == some p || s.hasSetup p⟩
  | setChannel => exact ⟨_, fun _ => rfl, (State.setChannel_portWork _ _).setup Code.setChannel⟩
  | enableChannel => exact ⟨_, fun _ => rfl, (State.enableChannel_portWork _).setup Code.enableChannel⟩
  | disableChannel => exact ⟨_, fun _ => rfl, (State.disableChannel_portWork _).setup Code.disableChannel⟩
  | readChannel => exact ⟨_, fun _ => rfl, State.readChannel_portWork _⟩
  | setJob => exact ⟨_, fun _ => rfl, (State.setJob_portWork _ _ _ _).setup Code.setJob⟩
  | setBatchSize => exact ⟨_, fun _ => rfl, (State.setBatchSize_portWork _ _).setup Code.setBatchSize⟩
  | switchJob => exact ⟨_, fun _ => rfl, (State.switchJob_portWork _).setup Code.switchJob⟩
  | readJob => exact ⟨_, fun _ => rfl, State.readJob_portWork _⟩
  | readOpen => exact ⟨_, fun _ => rfl, .answer .ok Code.readOpen fun s => s.bfu.openBatch.bytes⟩
  | closeBatch =>
    exact ⟨_, fun _ => rfl, State.forceClose_portWork.privileged Code.closeBatch fun s => s.hasSetup p || s.hasBatch p⟩
  | readBatch => exact ⟨_, fun _ => rfl, State.readBatch_portWork _⟩
  | popBatch => exact ⟨_, fun _ => rfl, State.pop_portWork.privileged Code.popBatch fun s => s.hasBatch p⟩
  | setEvents _ events =>
    exact ⟨_, fun _ => rfl, State.storeEvents_portWork Code.setEvents events (fun s x => (s.events.get p).enableOnly x)
      fun s x => eventBytes ((s.events.get p).enableOnly x).request ++ eventBytes ((s.events.get p).enableOnly x).enable
        ++ eventBytes ((s.events.get p).discarded x)⟩
  | readEvents =>
    exact ⟨_, fun _ => rfl, .answer .ok Code.readEvents fun s => eventBytes (s.events.get p).request
      ++ eventBytes (s.events.get p).enable ++ [flagBit (s.events.get p).attn 0]⟩
  | clearEvents _ events =>
    exact ⟨_, fun _ => rfl, State.storeEvents_portWork Code.clearEvents events (fun s x => (s.events.get p).clear x)
      fun s x => eventBytes ((s.events.get p).clear x).request ++ eventBytes ((s.events.get p).clear x).enable⟩

/-- Settles O36: the opened transaction, the command's work and the end of the transaction each spare the port. -/
theorem portsKeptApart : Obligations.PortsKeptApart := by
  intro s c p q e port other unnamed
  obtain ⟨body, taken, work⟩ := exec_portWork port
  suffices spared : Completes (exec c s) (s.Spares q) from
    spared.mono fun t h => ⟨h.port, h.snapshot, h.enable, h.keeps e, h.fault⟩
  rw [taken]
  by_cases init : s.bti = .init
  · rw [transact_init _ _ _ init]
    exact completes_next (.refl s)
  · rw [transact_next _ _ _ init]
    exact completes_next (((State.Spares.openWrite other).trans (work.spares _ q other unnamed)).trans .of_eq)

/-! ## INIT (R170) -/

/-- Settles O7: a transaction of a port, and the two rows the bus alone makes, have no effect in INIT. -/
theorem initTakesNoTransaction : Obligations.InitTakesNoTransaction := by
  intro s c
  refine ⟨fun init => ⟨fun bus => ?_, ?_⟩, fun running => ?_⟩
  · cases port : c.port with
    | some p =>
      obtain ⟨body, taken, -⟩ := exec_portWork port
      rw [taken, transact_init _ _ _ init]
    | none =>
      cases c with
      | referenceCycleLatch address => exact congrArg _ (if_pos init)
      | readTransaction address clocked => exact congrArg _ (if_pos init)
      | _ => simp [Instr.onBus, port] at bus
  · exact congrArg _ (if_pos init)
  · exact congrArg _ (if_neg running)

/-! ## Addresses (R51, R169) -/

/-- The base of the block that the straps select (R169). -/
theorem addressBase_toNat {addr : BitVec 2} {base : Nat}
    (h : ([0x20, 0x28, 0x60, 0x68] : List Nat)[addr.toNat]? = some base) : (addressBase addr).toNat = base := by
  have table : ∀ a : BitVec 2, ([0x20, 0x28, 0x60, 0x68] : List Nat)[a.toNat]? = some (addressBase a).toNat := by decide
  exact Option.some.inj ((table addr).symm.trans h)

theorem portOfAddress_inside {addr : BitVec 2} {a : BitVec 7} {p : PortNum} (h : a.toNat = (addressBase addr).toNat + p.val) :
    portOfAddress addr a = some p := by
  have inside : (addressBase addr).toNat ≤ a.toNat ∧ a.toNat - (addressBase addr).toNat < 8 := by omega
  simp only [portOfAddress, dif_pos inside, Option.some.injEq, Fin.ext_iff]
  omega

theorem portOfAddress_foreign {addr : BitVec 2} {a : BitVec 7}
    (h : a.toNat < (addressBase addr).toNat ∨ (addressBase addr).toNat + 7 < a.toNat) : portOfAddress addr a = none :=
  dif_neg (by omega)

/-- Work that does not see the bus ends the same transaction whatever state the bus was in. -/
theorem transact_opened {s : State} {p : PortNum} {body : State → State} (work : ∀ b s, body (s.withBus b) = (body s).withBus b)
    (init : s.bti ≠ .init) (unopened : s.bti ≠ .code p) :
    transact p body s = transact p body ((s.latchReference p).withBus (.code p)) := by
  have opened : s.openWrite p = s.latchReference p := if_neg unopened
  rw [transact_next _ _ _ init, transact_addressed _ rfl, work, opened]
  rfl

/-- Settles O11: the addresses by the block they lie in, and a command's work, which does not see the bus, on the opened
transaction. -/
theorem writeAddressLatches : Obligations.WriteAddressLatches := by
  intro s c p a base n init block
  obtain rfl := addressBase_toNat block
  refine ⟨rfl, fun own => ?_, fun foreign => ?_, fun port unopened => ?_⟩
  · show execReferenceCycleLatch a s = _
    rw [execReferenceCycleLatch, if_neg init, portOfAddress_inside own]
    rfl
  · have unnamed := portOfAddress_foreign foreign
    refine ⟨?_, ?_⟩
    · show execReferenceCycleLatch a s = _
      rw [execReferenceCycleLatch, if_neg init, unnamed]
    · show execReadTransaction a n s = _
      rw [execReadTransaction, if_neg init, unnamed]
  · obtain ⟨body, taken, work⟩ := exec_portWork port
    rw [taken, taken]
    exact transact_opened work.blind init unopened

end Sys2Proof.Machine

/-! PROOFS. Faults of a command: what a fault leaves (R61, R62), the privilege check and the checks of a record's address.
PrivilegeLackIsFault (O28) and TableChecksRefuse (O29). -/

namespace Sys2Proof.Machine

/-! ## A fault found for a command (R61, R62) -/

/-- The opening of a write transaction moves the ports alone (R51). -/
theorem State.openWrite_frame (s : State) (p : PortNum) : s.openWrite p = { s with ports := (s.openWrite p).ports } := by
  unfold State.openWrite
  split <;> rfl

/-- The issuing port once its write transaction is open. -/
theorem State.openWrite_get_self (s : State) (p : PortNum) : (s.openWrite p).ports.get p
    = { s.ports.get p with reference := if s.bti = .code p then (s.ports.get p).reference else s.phu.cycle } := by
  rw [State.openWrite_get]
  by_cases opened : s.bti = .code p
  · rw [if_neg fun h => h.2 opened, if_pos opened]
  · rw [if_pos ⟨rfl, opened⟩, if_neg opened]

theorem State.enable_fault (s : State) (p q : PortNum) (f : FaultRecord) :
    ((s.fault p f).events.get q).enable = (s.events.get q).enable := by
  rw [State.fault_events]
  split
  · rfl
  · rw [Bank.get_modify]
    split
    · next own => rw [own, EventSets.add_enable]
    · rfl

/-- FAULT is requested of the faulting port, at a capture; no other request comes or goes. -/
theorem State.requested_fault (s : State) (p q : PortNum) (f : FaultRecord) (e : Event) : (s.fault p f).requested q e
    = (s.requested q e || (q == p && e == .fault && !(s.ports.get p).fault.isFrozen)) := by
  rw [State.requested, State.fault_events]
  cases (s.ports.get p).fault.isFrozen with
  | true => simp [State.requested]
  | false =>
    by_cases own : q = p
    · simp [own, State.requested, EventSets.add, Event.only_getLsbD]
    · simp [own, State.requested, Bank.get_modify_ne]

/-- A fault of a command has no other effect than those of R61 and R62. -/
theorem State.openWrite_faulted (s : State) (p : PortNum) (f : FaultRecord) :
    s.Faulted p f { (s.openWrite p).fault p f with bti := .idle } where
  rest := by
    have frame := State.fault_frame (s.openWrite p) p f
    rw [s.openWrite_frame p] at frame ⊢
    exact congrArg (State.withBus .idle) frame
  port := by
    show ((s.openWrite p).fault p f).ports.get p = _
    rw [State.fault_get, if_pos rfl, State.openWrite_get_self, FaultState.meet_of_isFrozen]
  others q other := by
    show ((s.openWrite p).fault p f).ports.get q = _
    rw [State.fault_get, if_neg other, State.openWrite_get_ne s other]
  enables q := by
    show (((s.openWrite p).fault p f).events.get q).enable = _
    rw [State.enable_fault, State.openWrite_events]
  requests q e := by
    show ((s.openWrite p).fault p f).requested q e = _
    rw [State.requested_fault, State.openWrite_fault, State.requested_congr (s.openWrite_events p)]

/-! ## The privilege check (R48) -/

/-- What is left of a command whose privilege is not held. -/
theorem transact_lacking {s : State} {p : PortNum} {k code : Byte} (allowed : State → Bool) (body : State → State)
    (init : s.bti ≠ .init) {held : Bool} (same : allowed (s.openWrite p) = held)
    (h : (if held then none else some (p, k)) = some (p, code)) :
    transact p (fun s => s.privileged p k (allowed s) body) s = .next { (s.openWrite p).fault p
      ⟨.privilege, code, none, none, none, ((s.openWrite p).ports.get p).reference⟩ with bti := .idle } := by
  cases held with
  | true => cases h
  | false =>
    cases h
    rw [transact_next _ _ _ init, same, State.privileged_refused]

theorem State.hasSetup_openWrite (s : State) (p : PortNum) : (s.openWrite p).hasSetup p = (s.ports.get p).privileges.setup :=
  congrArg Privileges.setup (s.openWrite_privileges p p)

theorem State.hasBatch_openWrite (s : State) (p : PortNum) : (s.openWrite p).hasBatch p = (s.ports.get p).privileges.batch :=
  congrArg Privileges.batch (s.openWrite_privileges p p)

/-- A port is named by its own number alone. -/
theorem namedPort_self (target : Byte) (p : PortNum) : (namedPort target == some p) = (target.toNat == p.val) := by
  rw [Bool.eq_iff_iff, beq_iff_eq, beq_iff_eq]
  refine ⟨fun named => (namedPort_val named).symm, fun own => ?_⟩
  have inside : target.toNat < 8 := own ▸ p.isLt
  rw [namedPort, dif_pos inside]
  exact congrArg some (Fin.ext own)

/-- A command that lacks its privilege only finds the PRIVILEGE fault. -/
theorem exec_lacking {s : State} {c : Instr} {p : PortNum} {code : Byte} (init : s.bti ≠ .init) (port : c.port = some p)
    (h : c.lacking (s.ports.get p).privileges = some (p, code)) : exec c s = .next { (s.openWrite p).fault p
      ⟨.privilege, code, none, none, none, ((s.openWrite p).ports.get p).reference⟩ with bti := .idle } := by
  have setup := s.hasSetup_openWrite p
  have batch := s.hasBatch_openWrite p
  cases c with cases port
  | purge => exact transact_lacking (·.hasSetup p) (State.purge p) init setup h
  | rejectRange _ a b => exact transact_lacking (·.hasSetup p) (State.rejectRange p a.toNat b.toNat) init setup h
  | resync => exact transact_lacking (·.hasSetup p) _ init setup h
  | setLine _ l kc counts t =>
    exact transact_lacking (·.hasSetup p) (State.setLine p l.toNat kc.toNat counts.toNat t.toNat) init setup h
  | setPort _ target pr base length dirAccess mask =>
    exact transact_lacking (·.hasSetup p) (State.setPort p target pr base length dirAccess mask) init setup h
  | portReset _ target =>
    refine transact_lacking (fun s => namedPort target == some p || s.hasSetup p) (State.portReset p target) init ?_ h
    rw [namedPort_self, setup, Bool.or_comm]
  | setChannel _ channel config => exact transact_lacking (·.hasSetup p) (State.setChannel p channel config) init setup h
  | enableChannel _ channel => exact transact_lacking (·.hasSetup p) (State.enableChannel p channel) init setup h
  | disableChannel _ channel => exact transact_lacking (·.hasSetup p) (State.disableChannel p channel) init setup h
  | setJob _ slot order size quota =>
    exact transact_lacking (·.hasSetup p) (State.setJob p slot order size quota) init setup h
  | setBatchSize _ slot size => exact transact_lacking (·.hasSetup p) (State.setBatchSize p slot size) init setup h
  | switchJob _ slot => exact transact_lacking (·.hasSetup p) (State.switchJob p slot) init setup h
  | closeBatch =>
    refine transact_lacking (fun s => s.hasSetup p || s.hasBatch p) (State.forceClose p) init ?_ h
    rw [setup, batch]
  | popBatch => exact transact_lacking (·.hasBatch p) (State.pop p) init batch h
  | _ => cases h

/-- Settles O28: the check comes before every operand check, so the fault is all there is. -/
theorem privilegeLackIsFault : Obligations.PrivilegeLackIsFault := by
  intro s c p code init port lacking
  rw [exec_lacking init port lacking]
  have faulted := s.openWrite_faulted p ⟨.privilege, code, none, none, none, ((s.openWrite p).ports.get p).reference⟩
  exact completes_next ⟨faulted, congrArg Port.response faulted.port, rfl, rfl, rfl, rfl⟩

/-! ## The checks of a record's address (R54 to R58) -/

/-- A window that allows no table access of the kind (R49, R56). -/
theorem Access.allows_eq_false {a : Access} {write : Bool} (h : a = .none ∨ (write = true ∧ a ≠ .readWrite)) :
    a.allows write = false := by
  rcases h with rfl | ⟨rfl, other⟩
  · rfl
  · cases a with
    | none => rfl
    | read => rfl
    | readWrite => exact absurd rfl other

theorem Access.allows_eq_true {a : Access} {write : Bool} (given : a ≠ .none) (h : write = true → a = .readWrite) :
    a.allows write = true := by
  cases a with
  | none => exact absurd rfl given
  | read =>
    cases write with
    | false => rfl
    | true => cases h rfl
  | readWrite => rfl

theorem Window.positionOf_up {d : Window} (up : d.direction = .up) (i : Nat) : d.positionOf i = some (d.base + i) := by
  simp [Window.positionOf, up]

theorem Window.positionOf_down {d : Window} (down : d.direction = .down) (i : Nat) :
    d.positionOf i = if i ≤ d.base then some (d.base - i) else none := by
  simp [Window.positionOf, down]

theorem Window.indexOf_up {d : Window} (up : d.direction = .up) (pos : Nat) :
    d.indexOf pos = if d.base ≤ pos ∧ pos < d.base + d.length then some (pos - d.base) else none := by
  simp only [Window.indexOf, up]
  exact if_congr (by omega) rfl rfl

theorem Window.indexOf_down {d : Window} (down : d.direction = .down) (pos : Nat) :
    d.indexOf pos = if pos ≤ d.base ∧ d.base < pos + d.length then some (d.base - pos) else none := by
  simp only [Window.indexOf, down]
  exact if_congr (by omega) rfl rfl

theorem FaultState.isFrozen_iff (x : FaultState) : x.isFrozen = true ↔ x ≠ .clear := by
  cases x <;> simp [FaultState.isFrozen]

section

variable {q : Port} {l : Nat} {write : Bool} (code : Byte)

/-- The frozen check stops every write, and no read (R55). -/
theorem Port.reachIndex_frozen (frozen : q.fault.isFrozen = true) (i : Nat) : q.reachIndex l true code i = .frozen := by
  simp [Port.reachIndex, frozen]

theorem Port.reachSerial_frozen (frozen : q.fault.isFrozen = true) (x : Word) : q.reachSerial l true code x = .frozen := by
  simp [Port.reachSerial, frozen]

variable (unfrozen : (write && q.fault.isFrozen) = false)
include unfrozen

theorem Port.reachIndex_access (denied : q.window.access.allows write = false) (i : Nat) :
    q.reachIndex l write code i = .fault ⟨.access, code, some i, none, none, q.reference⟩ := by
  simp [Port.reachIndex, unfrozen, denied]

theorem Port.reachSerial_access (denied : q.window.access.allows write = false) (x : Word) :
    q.reachSerial l write code x = .fault ⟨.access, code, none, none, some x, q.reference⟩ := by
  simp [Port.reachSerial, unfrozen, denied]

variable (allowed : q.window.access.allows write = true)
include allowed

theorem Port.reachIndex_window {i : Nat} (beyond : q.window.length ≤ i) :
    q.reachIndex l write code i = .fault ⟨.window, code, some i, none, none, q.reference⟩ := by
  simp [Port.reachIndex, unfrozen, allowed, beyond]

/-- A DOWN mapping below position 0 has no position and no serial (R58). -/
theorem Port.reachIndex_below {i : Nat} (inside : i < q.window.length) (below : q.window.positionOf i = none) :
    q.reachIndex l write code i = .fault ⟨.line, code, some i, none, none, q.reference⟩ := by
  simp [Port.reachIndex, unfrozen, allowed, Nat.not_le.mpr inside, below]

theorem Port.reachIndex_line {i pos : Nat} (inside : i < q.window.length) (place : q.window.positionOf i = some pos)
    (off : l ≤ pos) : q.reachIndex l write code i
      = .fault ⟨.line, code, some i, some pos, some (q.reference - BitVec.ofNat 16 pos), q.reference⟩ := by
  simp [Port.reachIndex, unfrozen, allowed, Nat.not_le.mpr inside, place, Nat.not_lt.mpr off, Port.serialAt]

theorem Port.reachSerial_window {x : Word} {pos : Nat} (stood : q.positionOfSerial x = pos)
    (outside : q.window.indexOf pos = none) :
    q.reachSerial l write code x = .fault ⟨.window, code, none, some pos, some x, q.reference⟩ := by
  simp [Port.reachSerial, unfrozen, allowed, stood, outside]

theorem Port.reachSerial_line {x : Word} {pos i : Nat} (stood : q.positionOfSerial x = pos)
    (place : q.window.indexOf pos = some i) (off : l ≤ pos) :
    q.reachSerial l write code x = .fault ⟨.line, code, some i, some pos, some x, q.reference⟩ := by
  simp [Port.reachSerial, unfrozen, allowed, stood, place, Nat.not_lt.mpr off]

end

/-! ## The four commands that name one record -/

section

variable {s : State} {p : PortNum} (i : Byte) (x : Word) {es : List RawEntry} (init : s.bti ≠ .init)
include init

theorem exec_readRec : exec (.readRec p i) s = .next { (s.openWrite p).readReached p 0x30
    (((s.openWrite p).ports.get p).reachIndex s.ttb.l false 0x30 i.toNat) with bti := .idle } := by
  show execReadRec p i s = _
  rw [execReadRec, transact_next _ _ _ init, State.openWrite_ttb]
  rfl

theorem exec_readRecSer : exec (.readRecSer p x) s = .next { (s.openWrite p).readReached p 0x31
    (((s.openWrite p).ports.get p).reachSerial s.ttb.l false 0x31 x) with bti := .idle } := by
  show execReadRecSer p x s = _
  rw [execReadRecSer, transact_next _ _ _ init, State.openWrite_ttb]
  rfl

variable (short : es.length ≤ maxEntries)
include short

theorem exec_writeRec : exec (.writeRec p i es) s = .next { (s.openWrite p).writeReached p 0x33
    (((s.openWrite p).ports.get p).reachIndex s.ttb.l true 0x33 i.toNat) es with bti := .idle } := by
  show execWriteRec p i es s = _
  rw [execWriteRec, transact_next _ _ _ init, if_neg (Nat.not_lt.mpr short), State.openWrite_ttb]
  rfl

theorem exec_writeRecSer : exec (.writeRecSer p x es) s = .next { (s.openWrite p).writeReached p 0x34
    (((s.openWrite p).ports.get p).reachSerial s.ttb.l true 0x34 x) es with bti := .idle } := by
  show execWriteRecSer p x es s = _
  rw [execWriteRecSer, transact_next _ _ _ init, if_neg (Nat.not_lt.mpr short), State.openWrite_ttb]
  rfl

variable {i x} {write : Bool} {f : FaultRecord}

/-- A fault that the checks find is all that a command by local index does, a read or a write. -/
theorem exec_index_faulted (reach : ((s.openWrite p).ports.get p).reachIndex s.ttb.l write (if write then 0x33 else 0x30)
    i.toNat = .fault f) : Completes (exec (if write then .writeRec p i es else .readRec p i) s) (s.Faulted p f) := by
  cases write with
  | false =>
    simp only [Bool.false_eq_true, if_false] at reach ⊢
    rw [exec_readRec i init, reach]
    exact completes_next (s.openWrite_faulted p f)
  | true =>
    simp only [if_true] at reach ⊢
    rw [exec_writeRec i init short, reach]
    exact completes_next (s.openWrite_faulted p f)

/-- The same for a command by serial. -/
theorem exec_serial_faulted (reach : ((s.openWrite p).ports.get p).reachSerial s.ttb.l write (if write then 0x34 else 0x31) x
    = .fault f) : Completes (exec (if write then .writeRecSer p x es else .readRecSer p x) s) (s.Faulted p f) := by
  cases write with
  | false =>
    simp only [Bool.false_eq_true, if_false] at reach ⊢
    rw [exec_readRecSer x init, reach]
    exact completes_next (s.openWrite_faulted p f)
  | true =>
    simp only [if_true] at reach ⊢
    rw [exec_writeRecSer x init short, reach]
    exact completes_next (s.openWrite_faulted p f)

end

/-- Settles O29: the checks are those of `Port.reachIndex` and `Port.reachSerial`, one after the other. -/
theorem tableChecksRefuse : Obligations.TableChecksRefuse := by
  rintro s p i x es q pos write byIndex bySerial code codeSer init short rfl hpos rfl rfl rfl rfl
  have stood : ((s.openWrite p).ports.get p).positionOfSerial x = pos := hpos.symm
  refine ⟨fun writes stands => ?_, fun clear => ?_⟩
  · have frozen := (FaultState.isFrozen_iff _).mpr stands
    subst writes
    refine ⟨(exec_writeRec i init short).trans ?_, (exec_writeRecSer x init short).trans ?_⟩
    · rw [Port.reachIndex_frozen _ frozen]
      rfl
    · rw [Port.reachSerial_frozen _ frozen]
      rfl
  · have unfrozen : (write && ((s.openWrite p).ports.get p).fault.isFrozen) = false := by
      cases write with
      | false => rfl
      | true => rw [clear rfl]; rfl
    refine ⟨fun refused => ?_, fun given readWrite => ?_⟩
    · have denied := Access.allows_eq_false refused
      exact ⟨exec_index_faulted init short (Port.reachIndex_access _ unfrozen denied _),
        exec_serial_faulted init short (Port.reachSerial_access _ unfrozen denied _)⟩
    · have allowed := Access.allows_eq_true given readWrite
      refine ⟨fun beyond => ?_, fun inside up off => ?_, fun inside down below => ?_, fun inside down above off => ?_,
        fun up outside => ?_, fun down outside => ?_, fun up low high off => ?_, fun down low high off => ?_⟩
      · exact exec_index_faulted init short (Port.reachIndex_window _ unfrozen allowed beyond)
      · have place := Window.positionOf_up up i.toNat
        exact exec_index_faulted init short (Port.reachIndex_line _ unfrozen allowed inside place off)
      · have place := (Window.positionOf_down down i.toNat).trans (if_neg (Nat.not_le.mpr below))
        exact exec_index_faulted init short (Port.reachIndex_below _ unfrozen allowed inside place)
      · have place := (Window.positionOf_down down i.toNat).trans (if_pos above)
        exact exec_index_faulted init short (Port.reachIndex_line _ unfrozen allowed inside place off)
      · have place := (Window.indexOf_up up pos).trans (if_neg (by omega))
        exact exec_serial_faulted init short (Port.reachSerial_window _ unfrozen allowed stood place)
      · have place := (Window.indexOf_down down pos).trans (if_neg (by omega))
        exact exec_serial_faulted init short (Port.reachSerial_window _ unfrozen allowed stood place)
      · have place := (Window.indexOf_up up pos).trans (if_pos ⟨low, high⟩)
        exact exec_serial_faulted init short (Port.reachSerial_line _ unfrozen allowed stood place off)
      · have place := (Window.indexOf_down down pos).trans (if_pos ⟨low, high⟩)
        exact exec_serial_faulted init short (Port.reachSerial_line _ unfrozen allowed stood place off)

end Sys2Proof.Machine

/-! PROOFS. The single reads and the record's bytes: ReadsReachTheRecord (O30). -/

namespace Sys2Proof.Machine

/-! ## The bytes of a record (R180, Table 10-5) -/

/-- Two values packed into one word, the upper at bit `k`. -/
theorem ofNat_or_shiftLeft {w k n : Nat} (low : n < 2 ^ k) (m : Nat) :
    BitVec.ofNat w n ||| BitVec.ofNat w m <<< k = BitVec.ofNat w (2 ^ k * m + n) := by
  apply BitVec.eq_of_getLsbD_eq
  intro i hi
  simp only [BitVec.getLsbD_or, BitVec.getLsbD_shiftLeft, BitVec.getLsbD_ofNat, hi, decide_true, Bool.true_and,
    Nat.testBit_two_pow_mul_add m low i]
  by_cases inside : i < k
  · simp [inside]
  · have high : n.testBit i = false := Nat.testBit_lt_two_pow (low.trans_le (Nat.pow_le_pow_right (by decide) (by omega)))
    simp [inside, high, show i - k < w by omega]

/-- A result's code as a number. -/
def Result.number : Result → Nat
  | .none => 0
  | .done => 1
  | .fault => 2

theorem Result.code_eq (v : Result) : v.code = BitVec.ofNat 16 v.number := by cases v <;> rfl

theorem Result.number_lt (v : Result) : v.number < 4 := by cases v <;> decide

/-- The six results, two bits each. -/
theorem Results.word_eq (x : Results) : x.word = BitVec.ofNat 16 (x.cut.number + 4 * x.win.number + 16 * x.patch.number
    + 64 * x.gum.number + 256 * x.fold.number + 1024 * x.inspect.number) := by
  have cut := x.cut.number_lt
  have win := x.win.number_lt
  have patch := x.patch.number_lt
  have gum := x.gum.number_lt
  have fold := x.fold.number_lt
  simp only [Results.word, Result.code_eq]
  rw [ofNat_or_shiftLeft (by omega), ofNat_or_shiftLeft (by omega), ofNat_or_shiftLeft (by omega),
    ofNat_or_shiftLeft (by omega), ofNat_or_shiftLeft (by omega)]
  congr 1
  omega

/-- A class's code as a number. -/
def BlankClass.number : BlankClass → Nat
  | .uncounted => 0
  | .good => 1
  | .divertedReject => 2
  | .passedReject => 3
  | .sample => 4
  | .voidSkip => 5

/-- The job in the upper four bits, the class in the lower. -/
theorem jobClassByte_eq (j : JobNum) (c : BlankClass) :
    byteOf j.val <<< 4 ||| c.code = BitVec.ofNat 8 (16 * j.val + c.number) := by
  have code : c.code = BitVec.ofNat 8 c.number := by cases c <;> rfl
  rw [code, BitVec.or_comm]
  exact ofNat_or_shiftLeft (by cases c <;> decide) j.val

/-- The detail of a reject: the port in the upper four bits, its code in the lower (R32). -/
theorem Reject.detail_port (n : PortNum) (c : Fin 16) : (Reject.port n c).detail = BitVec.ofNat 8 (16 * n.val + c.val) := by
  rw [Reject.detail, BitVec.or_comm]
  exact ofNat_or_shiftLeft (k := 4) c.isLt n.val

/-- A reject's reason code as a number; 0 where there is none. -/
def rejectNumber : Option Reject → Nat
  | none => 0
  | some .splice => 1
  | some (.fault .cut) => 2
  | some (.fault .win) => 3
  | some (.fault .patch) => 4
  | some (.fault .gum) => 5
  | some (.fault .fold) => 6
  | some (.fault .inspect) => 7
  | some (.port _ _) => 8
  | some .lost => 9
  | some .range => 10

/-- FURTHER in bit 7, the reason code below it. -/
theorem reasonByte_eq (further : Bool) (x : Option Reject) :
    flagBit further 7 ||| (match x with | none => 0 | some y => y.code)
      = BitVec.ofNat 8 ((if further then 128 else 0) + rejectNumber x) := by
  cases x with
  | none => cases further <;> rfl
  | some y =>
    cases y with
    | fault f => cases further <;> cases f <;> rfl
    | port n c =>
      show flagBit further 7 ||| 8 = BitVec.ofNat 8 ((if further then 128 else 0) + 8)
      cases further <;> rfl
    | _ => cases further <;> rfl

/-- The route, HOLD in bit 4 and batch end in bit 5. -/
theorem routeByte_eq (v : Route) (hold batchEnd : Bool) : v.code ||| flagBit hold 4 ||| flagBit batchEnd 5
    = BitVec.ofNat 8 ((match v with | .stream => 0 | .diverted => 1 | .sampled => 2)
      + (if hold then 16 else 0) + (if batchEnd then 32 else 0)) := by
  cases v <;> cases hold <;> cases batchEnd <;> rfl

/-- The place in the upper four bits, the kind in the lower. -/
theorem placeKindByte_eq (v : Place) (k : Kind) : v.code <<< 4 ||| k.code
    = BitVec.ofNat 8 (16 * (match v with | .inLine => 1 | .departed => 2)
      + (match k with | .blank => 0 | .void => 1 | .splice => 2)) := by
  cases v <;> cases k <;> rfl

/-- The twelve bytes of a record, each by the numbers it packs. -/
theorem Record.bytes_eq (r : Record) : r.bytes = natBytes16 r.serial.toNat
    ++ [BitVec.ofNat 8 (16 * (match r.place with | .inLine => 1 | .departed => 2)
          + (match r.kind with | .blank => 0 | .void => 1 | .splice => 2)),
        BitVec.ofNat 8 (16 * r.job.val + r.cls.number)]
    ++ natBytes16 (r.results.cut.number + 4 * r.results.win.number + 16 * r.results.patch.number
      + 64 * r.results.gum.number + 256 * r.results.fold.number + 1024 * r.results.inspect.number)
    ++ [BitVec.ofNat 8 ((if r.further then 128 else 0) + rejectNumber r.reject),
        (match r.reject with | some (.port n c) => BitVec.ofNat 8 (16 * n.val + c.val) | _ => 0),
        BitVec.ofNat 8 ((match r.route with | .stream => 0 | .diverted => 1 | .sampled => 2)
          + (if r.hold then 16 else 0) + (if r.batchEnd then 32 else 0)),
        r.note]
    ++ natBytes16 (r.batch.getD 0).toNat := by
  have detail : (match r.reject with | none => 0 | some x => x.detail : Byte)
      = match r.reject with | some (.port n c) => BitVec.ofNat 8 (16 * n.val + c.val) | _ => 0 := by
    cases r.reject with
    | none => rfl
    | some x =>
      cases x with
      | port n c => exact Reject.detail_port n c
      | _ => rfl
  rw [← placeKindByte_eq, ← jobClassByte_eq, ← reasonByte_eq, ← routeByte_eq, ← detail, ← bytes16_toNat, ← bytes16_toNat,
    natBytes16, ← Results.word_eq]
  rfl

/-! ## The reads (R73 to R76) -/

section

variable {q : Port} {l i pos : Nat} {x : Word} (code : Byte) (access : q.window.access ≠ .none)
  (stood : (q.reference - x).toNat = pos) (onLine : pos < l) (shows : q.window.Shows i pos)
include access stood onLine shows

/-- A read whose access, window and line checks pass reaches the serial that stood there (R52). -/
theorem Port.reachIndex_read : q.reachIndex l false code i = .serial x := by
  have allowed : q.window.access.allows false = true := Access.allows_eq_true access fun h => Bool.noConfusion h
  have small : pos < 65536 := stood ▸ (q.reference - x).isLt
  have serial : q.serialAt pos = x := ((serial_at_iff _ _ small).mpr stood).symm
  simp [Port.reachIndex, allowed, Nat.not_le.mpr shows.inside, shows.positionOf, onLine, serial]

theorem Port.reachSerial_read : q.reachSerial l false code x = .serial x := by
  have allowed : q.window.access.allows false = true := Access.allows_eq_true access fun h => Bool.noConfusion h
  have place : q.positionOfSerial x = pos := stood
  simp [Port.reachSerial, allowed, place, shows.indexOf, onLine]

end

/-- A single read whose checks pass looks up the serial, whichever of the two commands it is. -/
theorem exec_read {s : State} {p : PortNum} {i : Byte} {x : Word} {q : Port} {pos : Nat} (init : s.bti ≠ .init)
    (port : (s.openWrite p).ports.get p = q) (access : q.window.access ≠ .none) (stood : (q.reference - x).toNat = pos)
    (onLine : pos < s.ttb.l) (shows : q.window.Shows i.toNat pos) {c : Instr}
    (mem : c ∈ [Instr.readRec p i, Instr.readRecSer p x]) {code : Byte}
    (hcode : code = if c = Instr.readRec p i then 0x30 else 0x31) :
    exec c s = .next { (s.openWrite p).readReached p code (.serial x) with bti := .idle } := by
  simp only [List.mem_cons, List.not_mem_nil, or_false] at mem
  rcases mem with rfl | rfl
  · rw [if_pos rfl] at hcode
    rw [hcode, exec_readRec i init, port, Port.reachIndex_read _ access stood onLine shows]
  · rw [if_neg Instr.noConfusion] at hcode
    rw [hcode, exec_readRecSer x init, port, Port.reachSerial_read _ access stood onLine shows]

/-- Settles O30: the bytes by the numbers they pack, and each command as the lookup of the serial that stood there. -/
theorem readsReachTheRecord : Obligations.ReadsReachTheRecord := by
  rintro s p i x q pos h two flag result htwo rfl rfl
  have pair : two = natBytes16 := by rw [htwo]; exact funext fun n => (natBytes16_eq n).symm
  refine ⟨by rw [pair]; exact h.bytes_eq, ?_⟩
  rintro init rfl stood access onLine inside up down c mem code hcode
  rw [exec_read init rfl access stood.symm onLine ⟨inside, up, down⟩ mem hcode, ← s.openWrite_ttb p, ← s.openWrite_phu p]
  generalize s.openWrite p = u
  refine ⟨fun absent => ?_, fun r found => ?_⟩
  · simp only [State.readReached, absent]
    rfl
  · have status : r.readStatus = if r.place = .inLine then .ok else .late := by
      rw [Record.readStatus, Record.inLine]
      exact if_congr beq_iff_eq rfl rfl
    rw [← status]
    simp only [State.readReached, Option.mem_def.mp found]
    rfl

end Sys2Proof.Machine

/-! PROOFS. The port commands and the resets: SetPortConfigures (O33), PortReadersAndClearFault (O34), PortResetClearsThePort
(O35) and ResetClearsPortsChannelsBatches (O6). -/

namespace Sys2Proof.Machine

/-! ## SET_PORT (R67, Table 10-3) -/

/-- The upper bits of a value are clear exactly when it lies below them. -/
theorem extractUpper_eq_zero {n : Nat} (k m : Nat) (split : n = k + m) (x : BitVec n) :
    x.extractLsb' k m = 0 ↔ x.toNat < 2 ^ k := by
  have bound : x.toNat / 2 ^ k < 2 ^ m := by
    rw [Nat.div_lt_iff_lt_mul (Nat.two_pow_pos k), ← Nat.pow_add, Nat.add_comm m k, ← split]
    exact x.isLt
  rw [← BitVec.toNat_inj, BitVec.extractLsb'_toNat, Nat.shiftRight_eq_div_pow, Nat.mod_eq_of_lt bound,
    show (0 : BitVec m).toNat = 0 from BitVec.toNat_zero, Nat.div_eq_zero_iff_lt (Nat.two_pow_pos k)]

theorem namedPort_eq_some {n : Byte} {u : PortNum} (h : u.val = n.toNat) : namedPort n = some u :=
  beq_iff_eq.mp ((namedPort_self n u).trans (beq_iff_eq.mpr h.symm))

theorem namedPort_eq_none {n : Byte} : namedPort n = none ↔ 7 < n.toNat := by
  rw [namedPort]
  by_cases inside : n.toNat < 8
  · rw [dif_pos inside]
    exact iff_of_false (Option.some_ne_none _) (by omega)
  · rw [dif_neg inside]
    exact iff_of_true rfl (by omega)

theorem namedPrivileges_eq (b : Byte) :
    namedPrivileges b = if b.toNat ≤ 3 then some ⟨b.getLsbD 0, b.getLsbD 1⟩ else none :=
  if_congr ((extractUpper_eq_zero 2 6 rfl b).trans Nat.lt_succ_iff) rfl rfl

theorem namedMask_eq (w : Word) : namedMask w = if w.toNat < 1024 then some (w.setWidth 10) else none :=
  if_congr (extractUpper_eq_zero 10 6 rfl w) (by rw [BitVec.setWidth_eq_extractLsb' (by decide)]) rfl

theorem namedAccess_eq (b : Byte) : namedAccess b = if b.toNat % 4 ≤ 2 then
    some (if b.toNat % 4 = 0 then .none else if b.toNat % 4 = 1 then .read else .readWrite) else none := by
  have low : (b.extractLsb' 0 2).toNat = b.toNat % 4 := BitVec.extractLsb'_toNat 0 2 b
  have cases : b.toNat % 4 = 0 ∨ b.toNat % 4 = 1 ∨ b.toNat % 4 = 2 ∨ b.toNat % 4 = 3 := by omega
  rw [namedAccess, low]
  rcases cases with h | h | h | h <;> rw [h] <;> rfl

/-- The window of bytes in their ranges. -/
theorem namedWindow_eq (base length da : Byte) : namedWindow base length da =
    if base.toNat ≤ 47 ∧ 1 ≤ length.toNat ∧ length.toNat ≤ 16 ∧ da.toNat ≤ 7 ∧ da.toNat % 4 ≤ 2 then
      some ⟨base.toNat, length.toNat, if da.getLsbD 2 then .down else .up,
        if da.toNat % 4 = 0 then .none else if da.toNat % 4 = 1 then .read else .readWrite⟩
    else none := by
  have upper : da.extractLsb' 3 5 ≠ 0 ↔ ¬ da.toNat < 8 := not_congr (extractUpper_eq_zero 3 5 rfl da)
  unfold namedWindow
  rw [namedAccess_eq]
  by_cases bad : 47 < base.toNat ∨ length.toNat = 0 ∨ 16 < length.toNat ∨ da.extractLsb' 3 5 ≠ 0
  · exact (if_pos bad).trans (if_neg (by rw [upper] at bad; omega)).symm
  · rw [if_neg bad]
    rw [upper] at bad
    by_cases access : da.toNat % 4 ≤ 2
    · rw [if_pos access]
      exact (if_pos (by omega)).symm
    · rw [if_neg access]
      exact (if_neg (by omega)).symm

/-- Settles O33: SETUP is held, so SET_PORT reads its operands, and takes them when all four are named. -/
theorem setPortConfigures : Obligations.SetPortConfigures := by
  rintro s p target pr base length da mask good init setup rfl
  have taken : exec (.setPort p target pr base length da mask) s
      = .next { (s.openWrite p).setPort p target pr base length da mask with bti := .idle } :=
    transact_setup Code.setPort (State.setPort p target pr base length da mask) init setup
  rw [taken]
  unfold State.setPort
  rw [namedPrivileges_eq, namedWindow_eq, namedMask_eq]
  simp only [Bool.and_eq_true, Bool.and_eq_false_iff, decide_eq_true_eq, decide_eq_false_iff_not]
  refine ⟨fun bad => ?_, fun fine u hu => ?_⟩
  · split
    · next named privileges window mask =>
      have number := (namedPort_val named).symm.trans_lt (Fin.isLt _)
      rw [Option.ite_none_right_eq_some] at privileges window mask
      omega
    · rfl
  · obtain ⟨⟨⟨⟨⟨⟨⟨-, privileges⟩, base⟩, low⟩, high⟩, da⟩, access⟩, mask⟩ := fine
    rw [namedPort_eq_some hu, if_pos privileges, if_pos ⟨base, low, high, da, access⟩, if_pos mask]
    rfl

/-! ## The readers of the ports (R65, R69) -/

/-- The bits of a set with one more field in it. -/
theorem markIf_getLsbD (f : Nat → Bool) (acc : BitVec 10) (n i : Fin 10) :
    (markIf f acc n).getLsbD i.val = (acc.getLsbD i.val || (i == n && f i.val)) := by
  have bit : ∀ n i : Fin 10, (1#10 <<< n.val).getLsbD i.val = (i == n) := by decide
  have own : (i == n && f i.val) = (i == n && f n.val) := by
    by_cases same : i = n
    · rw [same]
    · rw [beq_false_of_ne same, Bool.false_and, Bool.false_and]
  rw [own, markIf]
  cases f n.val
  · rw [Bool.and_false, Bool.or_false]
    rfl
  · rw [Bool.and_true, ← bit]
    exact BitVec.getLsbD_or

/-- A set of fields gathered again from its own bits. -/
theorem fieldsOf_getLsbD (m : BitVec 10) : fieldsOf m.getLsbD = m := by
  have marked : ∀ (ns : List (Fin 10)) (acc : BitVec 10) (i : Fin 10),
      (ns.foldl (markIf m.getLsbD) acc).getLsbD i.val = (acc.getLsbD i.val || (ns.contains i && m.getLsbD i.val)) := by
    intro ns
    induction ns with
    | nil => exact fun acc i => (Bool.or_false _).symm
    | cons n rest ih =>
      intro acc i
      rw [List.foldl_cons, ih, markIf_getLsbD, List.contains_cons, Bool.and_or_distrib_right, Bool.or_assoc]
  have all : ∀ n : Fin 10, fieldOrder.contains n = true := by decide
  apply BitVec.eq_of_getLsbD_eq
  intro i hi
  refine (marked fieldOrder 0 ⟨i, hi⟩).trans ?_
  rw [all, Bool.true_and]
  exact (congrArg (· || _) BitVec.getLsbD_zero).trans (Bool.false_or _)

/-- The mask as it is sent. -/
theorem maskBytes_eq (m : BitVec 10) : bytes16 (m.setWidth 16) = fieldSet m.getLsbD :=
  (congrArg fieldSetBytes (fieldsOf_getLsbD m)).symm.trans (fieldSetBytes_fieldsOf _)

theorem byteOf_named {n : Byte} {u : PortNum} (h : u.val = n.toNat) : byteOf u.val = n := by
  rw [byteOf, h, BitVec.ofNat_toNat, BitVec.setWidth_eq]

theorem FaultState.frozenByte_eq (x : FaultState) : flagBit x.isFrozen 0 = if x = .clear then 0 else 1 := by
  cases x <;> rfl

/-- The layout of READ_PORT. -/
theorem Port.bytes_eq (q : Port) (u : PortNum) : q.bytes u =
    [byteOf u.val, BitVec.ofNat 8 ((if q.privileges.setup then 1 else 0) + (if q.privileges.batch then 2 else 0)),
      BitVec.ofNat 8 q.window.base, BitVec.ofNat 8 q.window.length,
      BitVec.ofNat 8 ((match q.window.access with | .none => 0 | .read => 1 | .readWrite => 2)
        + (if q.window.direction = .down then 4 else 0))]
      ++ fieldSet (fun n => q.mask.getLsbD n) ++ [if q.fault = .clear then 0 else 1] := by
  have privileges : q.privileges.byte
      = BitVec.ofNat 8 ((if q.privileges.setup then 1 else 0) + (if q.privileges.batch then 2 else 0)) := by
    unfold Privileges.byte
    cases q.privileges.setup <;> cases q.privileges.batch <;> rfl
  have dirAccess : q.window.dirAccessByte
      = BitVec.ofNat 8 ((match q.window.access with | .none => 0 | .read => 1 | .readWrite => 2)
        + (if q.window.direction = .down then 4 else 0)) := by
    unfold Window.dirAccessByte
    cases q.window.access <;> cases q.window.direction <;> rfl
  rw [Port.bytes, privileges, dirAccess, maskBytes_eq, FaultState.frozenByte_eq]
  rfl

/-- The layout of READ_FAULT; a CLEAR record sends zeros (log 24). -/
theorem FaultState.bytes_eq (x : FaultState) (u : PortNum) : x.bytes u = byteOf u.val :: match x with
    | .clear => [0, 0, 0, 0, 0, 0, 0, 0, 0, 0, 0]
    | .frozen more f => [(if more then 3 else 1 : Byte),
        (match f.kind with | .privilege => 1 | .access => 2 | .window => 3 | .line => 4 : Byte), f.code,
        BitVec.ofNat 8 ((if f.index.isSome then 1 else 0) + (if f.position.isSome then 2 else 0)
          + (if f.serial.isSome then 4 else 0)), BitVec.ofNat 8 (f.index.getD 0)]
        ++ bytes16 (BitVec.ofNat 16 (f.position.getD 0)) ++ bytes16 (f.serial.getD 0) ++ bytes16 f.reference := by
  cases x with
  | clear => rfl
  | frozen more f =>
    have state : 1 ||| flagBit more 1 = (if more then 3 else 1 : Byte) := by cases more <;> rfl
    have kind : f.kind.code = (match f.kind with | .privilege => 1 | .access => 2 | .window => 3 | .line => 4 : Byte) := by
      cases f.kind <;> rfl
    have parts : flagBit f.index.isSome 0 ||| flagBit f.position.isSome 1 ||| flagBit f.serial.isSome 2
        = BitVec.ofNat 8 ((if f.index.isSome then 1 else 0) + (if f.position.isSome then 2 else 0)
          + (if f.serial.isSome then 4 else 0)) := by
      cases f.index.isSome <;> cases f.position.isSome <;> cases f.serial.isSome <;> rfl
    rw [FaultState.bytes, state, kind, parts]
    rfl

/-- Settles O34: the three commands ask for no privilege and work on the state as it stands. -/
theorem portReadersAndClearFault : Obligations.PortReadersAndClearFault := by
  intro s p target addressed
  refine ⟨fun above => ⟨?_, ?_⟩, ?_, ?_⟩
  · show execReadPort p target s = _
    rw [execReadPort, transact_addressed _ addressed, namedPort_eq_none.mpr above]
    rfl
  · show execReadFault p target s = _
    rw [execReadFault, transact_addressed _ addressed, namedPort_eq_none.mpr above]
    rfl
  · rintro u hu q rfl
    refine ⟨?_, ?_⟩
    · show execReadPort p target s = _
      rw [execReadPort, transact_addressed _ addressed, namedPort_eq_some hu]
      dsimp only
      rw [Port.bytes_eq, byteOf_named hu]
      rfl
    · show execReadFault p target s = _
      rw [execReadFault, transact_addressed _ addressed, namedPort_eq_some hu]
      dsimp only
      rw [FaultState.bytes_eq, byteOf_named hu]
      rfl
  · show execClearFault p s = _
    rw [execClearFault, transact_addressed _ addressed]
    rfl

/-! ## PORT_RESET (R70) -/

/-- The ports after port `p` has reset port `u`: `u` emptied, and OK answered where `p` is another (R70). -/
def State.portsReset (s : State) (p u : PortNum) : Bank Port 8 :=
  let emptied := s.ports.modify u fun q => { q with response := Response.initial, fault := .clear }
  if u = p then emptied else emptied.modify p fun q => { q with response := ⟨.ok, 0x44, []⟩ }

/-- A PORT_RESET that is taken, whole. -/
theorem State.portReset_eq (s : State) (p : PortNum) {target : Byte} {u : PortNum} (named : namedPort target = some u) :
    s.portReset p target = { s with
      phu := { s.phu with snapshots := s.phu.snapshots.put u none }
      ports := s.portsReset p u
      events := s.events.put u ⟨0, 0⟩ } := by
  unfold State.portReset State.portsReset
  rw [named]
  by_cases own : u = p
  · simp only [own, if_true]
    rfl
  · simp only [own, if_false]
    rfl

section

variable (s : State) {p u v : PortNum}

theorem State.portsReset_named : (s.portsReset p u).get u
    = { s.ports.get u with fault := .clear, response := ⟨.nothing, 0, []⟩ } := by
  unfold State.portsReset
  dsimp only
  split
  · exact Bank.get_modify_same _ _ _
  · next other => exact (Bank.get_modify_ne _ _ other).trans (Bank.get_modify_same _ _ _)

theorem State.portsReset_issuer (other : u ≠ p) :
    (s.portsReset p u).get p = { s.ports.get p with response := ⟨.ok, 0x44, []⟩ } := by
  unfold State.portsReset
  rw [if_neg other, Bank.get_modify_same, Bank.get_modify_ne _ _ other.symm]

theorem State.portsReset_other (named : v ≠ u) (issuer : v ≠ p) : (s.portsReset p u).get v = s.ports.get v := by
  unfold State.portsReset
  dsimp only
  split
  · exact Bank.get_modify_ne _ _ named
  · exact (Bank.get_modify_ne _ _ issuer).trans (Bank.get_modify_ne _ _ named)

end

/-- Settles O35: a port may reset itself, and one with SETUP any other; the rest is the privilege fault or RANGE. -/
theorem portResetClearsThePort : Obligations.PortResetClearsThePort := by
  rintro s p u v target setup addressed rfl
  have held (allowed : (namedPort target == some p || s.hasSetup p) = true) :
      exec (.portReset p target) s = .next { s.portReset p target with bti := .idle } := by
    show execPortReset p target s = _
    rw [execPortReset, transact_addressed _ addressed, allowed, State.privileged_allowed]
  refine ⟨fun lacks other _ => ?_, fun may hu => ?_, fun above setup => ?_⟩
  · have lacking : (Instr.portReset p target).lacking (s.ports.get p).privileges = some (p, 0x44) := by
      simp [Instr.lacking, lacks, other]
    have faulted := s.openWrite_faulted p ⟨.privilege, 0x44, none, none, none, (s.ports.get p).reference⟩
    rw [State.openWrite_addressed addressed] at faulted
    rw [exec_lacking (bti_ne_init addressed) rfl lacking, State.openWrite_addressed addressed]
    exact completes_next faulted
  · have named := namedPort_eq_some hu
    have allowed : (namedPort target == some p || s.hasSetup p) = true := by
      rw [named, Bool.or_eq_true, beq_iff_eq, Option.some.injEq]
      exact may
    rw [held allowed, s.portReset_eq p named]
    refine completes_next ⟨rfl, Bank.get_put_same _ _ _, fun other => Bank.get_put_ne _ _ other, Bank.get_put_same _ _ _, ?_,
      fun other => Bank.get_put_ne _ _ other, s.portsReset_named, s.portsReset_issuer, s.portsReset_other⟩
    exact congrArg EventSets.attn (Bank.get_put_same s.events u ⟨0, 0⟩)
  · rw [held (by rw [State.hasSetup, setup, Bool.or_true]), State.portReset, namedPort_eq_none.mpr above]
    rfl

/-! ## Resets (R71, R108, R126, R145, R158, R167, R170) -/

/-- The ports after a reset: port 0 is the supervisor's (R71). -/
theorem State.resetPart_port (s : State) (pins : ResetPins) (p : PortNum) :
    (s.resetPart pins).ports.get p = if p = 0 then Port.resetSupervisor else Port.reset := by
  refine (Bank.get_put _ 0 p _).trans ?_
  rw [Bank.get_fill]

/-- The job slots after a reset: slot 0 alone is defined (R158). -/
theorem Bfu.reset_job (j : JobNum) : Bfu.reset.jobs.get j = { JobSlot.reset with defined := decide (j = 0) } := by
  refine (Bank.get_put _ 0 j _).trans ?_
  rw [Bank.get_fill]
  by_cases first : j = 0
  · rw [if_pos first, decide_eq_true first]
  · rw [if_neg first, decide_eq_false first]
    rfl

/-- Settles O6: both resets leave the values of `State.resetWith`. -/
theorem resetClearsPortsChannelsBatches : Obligations.ResetClearsPortsChannelsBatches := by
  intro s c pins p k j reset
  have taken : exec c s = .next (s.resetPart pins) := by rcases reset with rfl | rfl <;> rfl
  have port := s.resetPart_port pins p
  have events : (s.resetPart pins).events.get p = ⟨0, 0⟩ := Bank.get_fill _ p
  have chan : (s.resetPart pins).chans.get k = Channel.reset := Bank.get_fill _ k
  rw [taken]
  refine completes_next ?_
  rw [State.attn, State.out, port, events, chan]
  refine ⟨?_, ?_, ?_, ?_, ?_, ?_, rfl, rfl, rfl, rfl, rfl, rfl, rfl, rfl, rfl, rfl, rfl, Bfu.reset_job j, rfl, rfl, rfl, rfl,
    rfl⟩
  all_goals split <;> rfl

end Sys2Proof.Machine

/-! PROOFS. The read of a whole window: WindowReadAnswers (O31). -/

namespace Sys2Proof.Machine

/-! ## The payload by its parts (R78) -/

/-- The part at place `i` of a list of parts of one length. -/
theorem take_drop_flatMap_const {α β : Type} {n : Nat} {f : α → List β} (h : ∀ a, (f a).length = n) (l : List α) (i : Nat)
    (inside : i < l.length) : ((l.flatMap f).drop (n * i)).take n = f l[i] := by
  induction l generalizing i with
  | nil => exact absurd inside (Nat.not_lt_zero i)
  | cons a rest ih =>
    cases i with
    | zero => exact List.take_left' (h a)
    | succ k =>
      rw [List.flatMap_cons, Nat.mul_succ, Nat.add_comm, ← List.drop_drop, List.drop_left' (h a)]
      exact ih k (Nat.lt_of_succ_lt_succ inside)

/-- The head of READ_WINDOW's payload. -/
theorem State.windowPayload_take (s : State) (p : PortNum) : (s.windowPayload p).take 5 = bytes16 s.phu.cycle
    ++ bytes16 (s.ports.get p).reference ++ [BitVec.ofNat 8 (s.ports.get p).window.length] :=
  List.take_left' rfl

/-- An entry, by whether a record is there (R180). -/
theorem entryRecordBytes_eq (found : Option Record) :
    entryRecordBytes found = match found with | some r => r.bytes | none => List.replicate 12 0 := by
  cases found <;> rfl

/-- The twelve bytes at local index `i`. -/
theorem State.windowPayload_entry (s : State) (p : PortNum) {i : Nat} (inside : i < (s.ports.get p).window.length) :
    ((s.windowPayload p).drop (5 + 12 * i)).take 12 = entryRecordBytes (s.windowEntry p i) := by
  have body : (s.windowPayload p).drop 5 = (List.range (s.ports.get p).window.length).flatMap
      fun k => entryRecordBytes (s.windowEntry p k) := List.drop_left' rfl
  rw [← List.drop_drop, body,
    take_drop_flatMap_const (fun _ => entryRecordBytes_length _) _ i (by rwa [List.length_range]), List.getElem_range]

/-! ## The record found at a local index (R77) -/

/-- Where the index names a position on the line, the entry is what the lookup of the serial there finds. -/
theorem State.windowEntry_of_position {s : State} {p : PortNum} {i pos : Nat}
    (place : (s.ports.get p).window.positionOf i = some pos) :
    s.windowEntry p i = if pos < s.ttb.l then s.ttb.lookup ((s.ports.get p).reference - BitVec.ofNat 16 pos) else none := by
  simp only [State.windowEntry, place, Port.serialAt]

theorem State.windowEntry_of_no_position {s : State} {p : PortNum} {i : Nat}
    (place : (s.ports.get p).window.positionOf i = none) : s.windowEntry p i = none := by
  simp only [State.windowEntry, place]

/-! ## The command (R77, R78) -/

/-- READ_WINDOW with its address acknowledged: the answer with access, the fault without. -/
theorem exec_readWindow {s : State} {p : PortNum} (addressed : s.bti = .code p) : exec (.readWindow p) s = .next
    (if (s.ports.get p).window.access.allows false then s.answered p ⟨.ok, 0x32, s.windowPayload p⟩
    else { s.fault p ⟨.access, 0x32, none, none, none, (s.ports.get p).reference⟩ with bti := .idle }) := by
  show execReadWindow p s = _
  rw [execReadWindow, transact_addressed _ addressed]
  dsimp only
  split <;> rfl

/-- Settles O31: the payload by its parts, each entry by the direction of the window and, in a DOWN window, by
whether the index still names a position. -/
theorem windowReadAnswers : Obligations.WindowReadAnswers := by
  rintro s p i q addressed rfl
  rw [exec_readWindow addressed]
  refine ⟨fun denied => ?_, fun given => ?_⟩
  · rw [Access.allows_eq_false (.inl denied)]
    have faulted := s.openWrite_faulted p ⟨.access, 0x32, none, none, none, (s.ports.get p).reference⟩
    rw [State.openWrite_addressed addressed] at faulted
    exact completes_next faulted
  · rw [Access.allows_eq_true given fun h => Bool.noConfusion h]
    have response : ((s.answered p ⟨.ok, 0x32, s.windowPayload p⟩).ports.get p).response
        = ⟨.ok, 0x32, s.windowPayload p⟩ := congrArg Port.response (Bank.get_modify_same _ _ _)
    refine completes_next ?_
    rw [if_pos rfl, response]
    refine ⟨rfl, rfl, rfl, s.windowPayload_length p, s.windowPayload_take p, fun inside => ?_⟩
    rw [s.windowPayload_entry p inside]
    cases direction : (s.ports.get p).window.direction with
    | up =>
      rw [State.windowEntry_of_position (Window.positionOf_up direction i)]
      cases decide (i ≤ (s.ports.get p).window.base) <;> exact entryRecordBytes_eq _
    | down =>
      have place := Window.positionOf_down direction i
      by_cases above : i ≤ (s.ports.get p).window.base
      · rw [State.windowEntry_of_position (place.trans (if_pos above)), decide_eq_true above]
        exact entryRecordBytes_eq _
      · rw [State.windowEntry_of_no_position (place.trans (if_neg above)), decide_eq_false above]
        rfl

end Sys2Proof.Machine

/-! PROOFS. The channels' invariant (R89 to R91, R93, R99, R102, R110) by its two shares, one channel's own and that of the
pairs, and what a change of one channel, with the partner that follows it, leaves of both. -/

namespace Sys2Proof.Machine

/-! ## The invariant by its shares -/

/-- One channel's share of the invariant, on a line of L `l` and P `p` whose absolute count is `presented` or not. -/
structure Channel.Sound (l p : Nat) (presented : Bool) (ch : Channel) : Prop where
  ok : ch.Ok l p
  held : ch.state.latch.isSome → presented = true
  waiting : ch.state = .waiting → presented = false
  spell : presented = true → ch.dropped = none ∧ ch.cut = none

/-- The pairs' share: an odd channel is CLAIMED exactly while its even partner holds TIME_LONG, and no other is (R102). -/
structure PairsOk (chans : Bank Channel 16) : Prop where
  claimed : ∀ k, isEven k = true → ((chans.get (partnerOf k)).state = .claimed ↔ (chans.get k).holdsLong = true)
  even : ∀ k, isEven k = true → (chans.get k).state ≠ .claimed
  odd : ∀ k, isEven k = false → (chans.get k).holdsLong = false

theorem State.channelsOk_iff (s : State) : s.ChannelsOk ↔
    (∀ k, (s.chans.get k).Sound s.ttb.l s.phu.p s.phu.presented) ∧ PairsOk s.chans :=
  ⟨fun ok => ⟨fun k => ⟨ok.each k, ok.held k, ok.waiting k, ok.spell k⟩, ok.claimed, ok.even, ok.odd⟩,
    fun ⟨each, pairs⟩ => ⟨fun k => (each k).ok, fun k => (each k).held, fun k => (each k).waiting, fun k => (each k).spell,
      pairs.claimed, pairs.even, pairs.odd⟩⟩

theorem State.ChannelsOk.sound {s : State} (ok : s.ChannelsOk) (k : ChanNum) :
    (s.chans.get k).Sound s.ttb.l s.phu.p s.phu.presented := (s.channelsOk_iff.mp ok).1 k

theorem State.ChannelsOk.pairs {s : State} (ok : s.ChannelsOk) : PairsOk s.chans := (s.channelsOk_iff.mp ok).2

/-- The pairs stay as they should be where no channel changes its being CLAIMED or its holding TIME_LONG. -/
theorem PairsOk.of_same {a b : Bank Channel 16} (ok : PairsOk a)
    (claimed : ∀ k, (b.get k).state = .claimed ↔ (a.get k).state = .claimed)
    (long : ∀ k, (b.get k).holdsLong = (a.get k).holdsLong) : PairsOk b where
  claimed k even := by rw [claimed, long]; exact ok.claimed k even
  even k even := by rw [Ne, claimed]; exact ok.even k even
  odd k odd := by rw [long]; exact ok.odd k odd

/-- What the invariant reads besides the channels is the same in `t` as in `s`. -/
structure State.SameLine (s t : State) : Prop where
  l : t.ttb.l = s.ttb.l
  p : t.phu.p = s.phu.p
  phase : t.phu.phase = s.phu.phase
  debt : t.phu.debt = s.phu.debt

namespace State.SameLine

variable {s t u : State}

theorem presented (h : s.SameLine t) : t.phu.presented = s.phu.presented := by
  rw [Phu.presented, h.phase, h.debt, Phu.presented]

theorem trans (h : s.SameLine t) (g : t.SameLine u) : s.SameLine u :=
  ⟨g.l.trans h.l, g.p.trans h.p, g.phase.trans h.phase, g.debt.trans h.debt⟩

theorem of_eq (table : t.ttb = s.ttb) (phu : t.phu = s.phu) : s.SameLine t :=
  ⟨by rw [table], by rw [phu], by rw [phu], by rw [phu]⟩

theorem of_channelWork (h : s.ChannelWork t) : s.SameLine t :=
  ⟨by rw [h.table], by rw [h.phu], by rw [h.phu], by rw [h.phu]⟩

theorem of_batchWork (h : s.BatchWork t) : s.SameLine t :=
  ⟨by rw [h.table], by rw [h.phu], by rw [h.phu], by rw [h.phu]⟩

/-- The invariant holds where each channel has its share and the pairs theirs. -/
theorem channelsOk (h : s.SameLine t) (each : ∀ k, (t.chans.get k).Sound s.ttb.l s.phu.p s.phu.presented)
    (pairs : PairsOk t.chans) : t.ChannelsOk := by
  rw [State.channelsOk_iff, h.l, h.p, h.presented]
  exact ⟨each, pairs⟩

end State.SameLine

/-- Work that leaves the channels and the line keeps the invariant. -/
theorem State.ChannelsOk.same {s t : State} (ok : s.ChannelsOk) (line : s.SameLine t) (chans : t.chans = s.chans) :
    t.ChannelsOk :=
  line.channelsOk (by rw [chans]; exact ok.sound) (by rw [chans]; exact ok.pairs)

/-! ## A channel's own share -/

/-- The configuration that the end of a pulse applies is sound. -/
theorem Channel.Ok.next {l p : Nat} {ch : Channel} (ok : ch.Ok l p) : (ch.pending.getD ch.config).Ok l p := by
  cases h : ch.pending with
  | none => exact ok.config
  | some c => exact (ok.pending c h).1

theorem Channel.Ok.pending_none {l p : Nat} {ch : Channel} (ok : ch.Ok l p) (still : ch.state.pulse = none) :
    ch.pending = none := by
  cases h : ch.pending with
  | none => rfl
  | some c => exact absurd (ok.pending c h).2 (by rw [still]; exact Bool.false_ne_true)

/-- The leads an arming latches lie within the lead limit (R110). -/
theorem ChanConfig.latchFor_leads (c : ChanConfig) (p : Nat) (speed : Int) (ct : Word) :
    (c.latchFor p speed ct).onLead ≤ c.leadLimit ∧ (c.latchFor p speed ct).offLead ≤ c.leadLimit :=
  ⟨leadOf_le _ _ _, leadOf_le _ _ _⟩

section

variable {l p : Nat} {presented : Bool} {ch new : Channel}

/-- A channel that holds neither a target nor a staged configuration, and does not wait. -/
theorem Channel.Sound.idle (h : ch.Sound l p presented) (config : new.config.Ok l p) (staged : new.pending = none)
    (latch : new.state.latch = none) (still : new.state ≠ .waiting) (overruns : new.overruns = ch.overruns := by rfl)
    (dropped : new.dropped = ch.dropped := by rfl) (cut : new.cut = ch.cut := by rfl) : new.Sound l p presented where
  ok := ⟨config, by simp [staged], by simp [latch], overruns ▸ h.ok.overruns⟩
  held := by simp [latch]
  waiting := fun e => absurd e still
  spell := by rw [dropped, cut]; exact h.spell

/-- A channel armed while the absolute count is presented. -/
theorem Channel.Sound.armed (h : ch.Sound l p presented) (shown : presented = true) (speed : Int) (ct : Word)
    (config : new.config.Ok l p) (staged : new.pending = none)
    (state : new.state = .armed (new.config.latchFor p speed ct)) (overruns : new.overruns ≤ 65535)
    (dropped : new.dropped = ch.dropped := by rfl) (cut : new.cut = ch.cut := by rfl) : new.Sound l p presented where
  ok := by
    refine ⟨config, by simp [staged], fun x hx => ?_, overruns⟩
    rw [state, ChanState.latch, Option.some.injEq] at hx
    exact hx ▸ new.config.latchFor_leads p speed ct
  held := fun _ => shown
  waiting := by simp [state]
  spell := by rw [dropped, cut]; exact h.spell

/-- A channel in a pulse keeps its share through a change within the pulse. -/
theorem Channel.Sound.pulsing (h : ch.Sound l p presented) (latch : new.state.latch = ch.state.latch)
    (pulse : new.state.pulse.isSome = true) (target : ch.state.latch.isSome = true)
    (config : new.config = ch.config := by rfl) (staged : new.pending = ch.pending := by rfl)
    (overruns : new.overruns = ch.overruns := by rfl) (dropped : new.dropped = ch.dropped := by rfl)
    (cut : new.cut = ch.cut := by rfl) : new.Sound l p presented where
  ok := ⟨config ▸ h.ok.config, fun c hc => ⟨(h.ok.pending c (staged ▸ hc)).1, pulse⟩,
    fun x hx => config ▸ h.ok.leads x (latch ▸ hx), overruns ▸ h.ok.overruns⟩
  held := fun _ => h.held target
  waiting := fun e => by rw [e] at pulse; exact absurd pulse Bool.false_ne_true
  spell := by rw [dropped, cut]; exact h.spell

end

/-- One overrun more stays within its limit (R93). -/
theorem overruns_le {n : Nat} (h : n ≤ 65535) (c : Bool) : (if c = true then min (n + 1) 65535 else n) ≤ 65535 := by
  split
  · exact Nat.min_le_right _ _
  · exact h

/-! ## The pairs (R102) -/

@[simp] theorem Channel.pairWith_holdsLong (long : Bool) (ch : Channel) : (ch.pairWith long).holdsLong = ch.holdsLong := by
  unfold Channel.pairWith
  split
  · rfl
  · split <;> rfl

theorem Channel.pairWith_claimed (long : Bool) (ch : Channel) : (ch.pairWith long).state = .claimed ↔ long = true := by
  unfold Channel.pairWith
  cases long with
  | true => simp
  | false =>
    by_cases claimed : ch.state = .claimed
    · simp [claimed]
    · simp [claimed]

/-- A partner that is as it should be stays. -/
theorem Channel.pairWith_of_iff {long : Bool} {ch : Channel} (h : ch.state = .claimed ↔ long = true) :
    ch.pairWith long = ch := by
  obtain ⟨config, pending, state, due, overruns, dropped, cut⟩ := ch
  unfold Channel.pairWith
  cases long with
  | true => simp [show state = .claimed from h.mpr rfl]
  | false => simp_all

/-- A partner that follows keeps its own share: what is claimed has no pulse. -/
theorem Channel.Sound.pairWith {l p : Nat} {presented long : Bool} {ch : Channel} (h : ch.Sound l p presented)
    (still : long = true → ch.state.pulse = none) : (ch.pairWith long).Sound l p presented := by
  unfold Channel.pairWith
  split
  · next claims => exact h.idle h.ok.config (h.ok.pending_none (still claims)) rfl (fun e => ChanState.noConfusion e)
  · split
    · next claimed =>
      exact h.idle h.ok.config (h.ok.pending_none (by rw [claimed]; rfl)) rfl (fun e => ChanState.noConfusion e)
    · exact h

/-- From `s` to `t` channel `k` alone changes, and the odd partner of an even one follows what it then holds (R102). -/
structure State.Changes (k : ChanNum) (s t : State) : Prop where
  line : s.SameLine t
  free : (t.chans.get k).state ≠ .claimed
  short : isEven k = false → (t.chans.get k).holdsLong = false
  still : isEven k = true → (t.chans.get k).holdsLong = true → (s.chans.get (partnerOf k)).state.pulse = none
  others : ∀ j ≠ k, t.chans.get j = if isEven k = true ∧ j = partnerOf k then
    (s.chans.get j).pairWith (t.chans.get k).holdsLong else s.chans.get j

theorem State.ChannelsOk.changed {s t : State} {k : ChanNum} (ok : s.ChannelsOk) (h : s.Changes k t)
    (free : (s.chans.get k).state ≠ .claimed) (sound : (t.chans.get k).Sound s.ttb.l s.phu.p s.phu.presented) :
    t.ChannelsOk := by
  have left : ∀ j ≠ k, ¬ (isEven k = true ∧ j = partnerOf k) → t.chans.get j = s.chans.get j := fun j apart other => by
    rw [h.others j apart, if_neg other]
  have evens : ∀ j ≠ k, isEven j = true → t.chans.get j = s.chans.get j := fun j apart even => left j apart fun pair => by
    rw [pair.2, isEven_partnerOf] at even
    exact Bool.noConfusion even
  refine h.line.channelsOk (fun j => ?_) ⟨fun j even => ?_, fun j even => ?_, fun j odd => ?_⟩
  · by_cases own : j = k
    · rw [own]; exact sound
    · rw [h.others j own]
      split
      · next pair => exact (ok.sound j).pairWith fun long => by rw [pair.2]; exact h.still pair.1 long
      · exact ok.sound j
  · by_cases own : j = k
    · subst own
      rw [h.others _ (partnerOf_ne even), if_pos ⟨even, rfl⟩]
      exact Channel.pairWith_claimed _ _
    · rw [evens j own even, ← ok.claimed j even]
      by_cases odd : partnerOf j = k
      · rw [odd]
        exact iff_of_false h.free free
      · rw [left _ odd fun pair => own (partnerOf_inj even pair.1 pair.2)]
  · by_cases own : j = k
    · rw [own]; exact h.free
    · rw [evens j own even]
      exact ok.even j even
  · by_cases own : j = k
    · subst own; exact h.short odd
    · rw [h.others j own]
      split
      · rw [Channel.pairWith_holdsLong]; exact ok.odd j odd
      · exact ok.odd j odd

/-- A change of channel `k` that keeps its configurations. -/
theorem State.ChannelsOk.changed_within {s t : State} {k : ChanNum} (ok : s.ChannelsOk) (line : s.SameLine t)
    (chans : ∀ j ≠ k, t.chans.get j = s.chans.get j) (long : (t.chans.get k).holdsLong = (s.chans.get k).holdsLong)
    (claimed : (s.chans.get k).state ≠ .claimed) (free : (t.chans.get k).state ≠ .claimed)
    (sound : (t.chans.get k).Sound s.ttb.l s.phu.p s.phu.presented) : t.ChannelsOk := by
  refine ok.changed ⟨line, free, fun odd => long.trans (ok.odd k odd), fun even holds => ?_, fun j apart => ?_⟩ claimed sound
  · rw [(ok.claimed k even).mpr (long ▸ holds)]
    rfl
  · rw [chans j apart]
    split
    · next pair =>
      obtain ⟨even, rfl⟩ := pair
      rw [long]
      exact (Channel.pairWith_of_iff (ok.claimed k even)).symm
    · rfl

/-- A channel's holding TIME_LONG once its staged configuration is applied. -/
theorem Channel.holdsLong_of_next {ch new : Channel} (config : new.config = ch.pending.getD ch.config)
    (staged : new.pending = none) : new.holdsLong = ((ch.pending.getD ch.config).mode == .timeLong) := by
  simp [Channel.holdsLong, config, staged]

theorem Channel.holdsLong_of_next_long {ch : Channel} (h : ((ch.pending.getD ch.config).mode == .timeLong) = true) :
    ch.holdsLong = true := by
  unfold Channel.holdsLong
  cases staged : ch.pending with
  | none => rw [staged] at h; rw [show (ch.config.mode == .timeLong) = true from h]; rfl
  | some c => rw [staged] at h; rw [Option.any_some, show (c.mode == .timeLong) = true from h, Bool.or_true]

/-- A change of channel `k` that applies its staged configuration, if one is held (R101). -/
theorem State.ChannelsOk.changed_staged {s t : State} {k : ChanNum} (ok : s.ChannelsOk) (line : s.SameLine t)
    (config : (t.chans.get k).config = (s.chans.get k).pending.getD (s.chans.get k).config)
    (staged : (t.chans.get k).pending = none)
    (others : ∀ j ≠ k, t.chans.get j = if isEven k = true ∧ j = partnerOf k then
      (s.chans.get j).settledBy (s.chans.get k).pending else s.chans.get j)
    (claimed : (s.chans.get k).state ≠ .claimed) (free : (t.chans.get k).state ≠ .claimed)
    (sound : (t.chans.get k).Sound s.ttb.l s.phu.p s.phu.presented) : t.ChannelsOk := by
  have long := Channel.holdsLong_of_next config staged
  refine ok.changed ⟨line, free, fun odd => ?_, fun even holds => ?_, fun j apart => ?_⟩ claimed sound
  · rw [long, ← Bool.not_eq_true]
    exact fun next => Bool.noConfusion ((ok.odd k odd).symm.trans (Channel.holdsLong_of_next_long next))
  · rw [(ok.claimed k even).mpr (Channel.holdsLong_of_next_long (long ▸ holds))]
    rfl
  · rw [others j apart]
    split
    · next pair =>
      obtain ⟨even, rfl⟩ := pair
      rw [long]
      have before := ok.claimed k even
      unfold Channel.settledBy
      cases hp : (s.chans.get k).pending with
      | none => exact (Channel.pairWith_of_iff (before.trans (by simp [Channel.holdsLong, hp]))).symm
      | some c => rfl
    · rfl

end Sys2Proof.Machine

/-! PROOFS. What the events of one channel, the start and the end of inhibition and the motion of the line make of the
channels' invariant. -/

namespace Sys2Proof.Machine

/-! ## Point events (R94, R96) -/

/-- A channel with a target is not CLAIMED. -/
theorem ChanState.ne_claimed_of_latch {c : ChanState} (h : c.latch.isSome = true) : c ≠ .claimed := by
  rintro rfl
  exact Bool.noConfusion h

theorem ChanState.latch_of_pulse {c : ChanState} (h : c.pulse.isSome = true) : c.latch.isSome = true := by
  cases c with
  | on l pulse => rfl
  | gap l pulse => rfl
  | _ => exact Bool.noConfusion h

section

variable {s : State} {k : ChanNum}

theorem State.ChannelsOk.rearm (ok : s.ChannelsOk) (l : Latch) (armed : (s.chans.get k).state = .armed l) (d : Word)
    (x : Count) : (s.rearm k d x).ChannelsOk := by
  have target : (s.chans.get k).state.latch.isSome = true := by rw [armed]; rfl
  have self : (s.rearm k d x).chans.get k = (s.chans.get k).rearmed d (s.nextLatch k x) := by
    rw [State.rearm_frame]
    exact Bank.get_put_same _ _ _
  have staged := (ok.each k).pending_none (by rw [armed]; rfl)
  refine ok.changed_within (.of_channelWork ((State.channelWork_modChan s k _).trans (State.arm_channelWork _ k x)))
    (fun j apart => ?_) (by rw [self]; rfl) (ChanState.ne_claimed_of_latch target)
    (by rw [self]; exact fun e => ChanState.noConfusion e) ?_
  · rw [State.rearm_frame]
    exact Bank.get_put_ne _ _ apart
  · rw [self]
    exact (ok.sound k).armed (ok.held k target) s.phu.speed _ (ok.each k).config staged rfl
      (overruns_le (ok.each k).overruns _)

/-- A change of channel `k` within its pulse, or into its first. -/
theorem State.ChannelsOk.pulsing (ok : s.ChannelsOk) {t : State} {new : Channel} (line : s.SameLine t)
    (chans : t.chans = s.chans.put k new) (target : (s.chans.get k).state.latch.isSome = true)
    (latch : new.state.latch = (s.chans.get k).state.latch) (pulse : new.state.pulse.isSome = true)
    (config : new.config = (s.chans.get k).config := by rfl) (staged : new.pending = (s.chans.get k).pending := by rfl)
    (overruns : new.overruns = (s.chans.get k).overruns := by rfl)
    (dropped : new.dropped = (s.chans.get k).dropped := by rfl) (cut : new.cut = (s.chans.get k).cut := by rfl) :
    t.ChannelsOk := by
  have self : t.chans.get k = new := by rw [chans, Bank.get_put_same]
  refine ok.changed_within line (fun j apart => by rw [chans, Bank.get_put_ne _ _ apart]) ?_
    (ChanState.ne_claimed_of_latch target) ?_ ?_
  · rw [self, Channel.holdsLong, config, staged, Channel.holdsLong]
  · rw [self]
    exact ChanState.ne_claimed_of_latch (by rw [latch]; exact target)
  · rw [self]
    exact (ok.sound k).pulsing latch pulse target config staged overruns dropped cut

theorem State.ChannelsOk.onEvent (ok : s.ChannelsOk) {l : Latch} (armed : (s.chans.get k).state = .armed l) (x : Count) :
    (s.onEvent k l x).ChannelsOk := by
  cases fires : (s.chans.get k).config.fires s.phu.speed (s.ttb.lookup ((s.chans.get k).config.gatingSerial l.ct)) with
  | false =>
    rw [State.onEvent_skips x fires]
    exact ok.rearm l armed _ x
  | true =>
    exact ok.pulsing (.of_channelWork (s.onEvent_channelWork k l x))
      (congrArg State.chans (State.onEvent_fires x rfl rfl fires)) (by rw [armed]; rfl) (by rw [armed]; rfl) rfl

theorem State.ChannelsOk.endPulse (ok : s.ChannelsOk) (pulse : (s.chans.get k).state.pulse.isSome = true) (l : Latch)
    (x : Count) : (s.endPulse k l x).ChannelsOk := by
  have target := ChanState.latch_of_pulse pulse
  have self := s.endPulse_get_self k l x rfl
  refine ok.changed_staged (.of_channelWork (s.endPulse_channelWork k l x)) (by rw [self]) (by rw [self])
    (fun j apart => s.endPulse_get_ne k l x apart) (ChanState.ne_claimed_of_latch target)
    (by rw [self]; exact fun e => ChanState.noConfusion e) ?_
  rw [self]
  exact (ok.sound k).armed (ok.held k target) s.phu.speed _ (ok.each k).next rfl rfl (overruns_le (ok.each k).overruns _)

end

theorem State.ChannelsOk.pointEvent {s : State} (ok : s.ChannelsOk) (x : Count) (k : ChanNum) :
    (s.pointEvent x k).ChannelsOk := by
  unfold State.pointEvent
  split
  · next armed => exact ok.onEvent armed x
  · next on => exact ok.endPulse (by rw [on]; rfl) _ x
  · exact ok

theorem State.ChannelsOk.pointEvents (x : Count) (ks : List ChanNum) : ∀ {s : State}, s.ChannelsOk →
    (ks.foldl (State.pointEvent x) s).ChannelsOk := by
  induction ks with
  | nil => exact id
  | cons k rest ih => exact fun ok => ih (ok.pointEvent x k)

theorem State.ChannelsOk.runPoints {s : State} (ok : s.ChannelsOk) (x : Count) : (s.runPoints x).ChannelsOk := by
  unfold State.runPoints
  split
  · have events : (s.pointEvents (s.atPoints x) x).ChannelsOk := State.ChannelsOk.pointEvents x _ ok
    exact events.same (.of_eq rfl rfl) rfl
  · exact ok

theorem State.ChannelsOk.runOffPoints {s : State} (ok : s.ChannelsOk) (x : Count) : (s.runOffPoints x).ChannelsOk := by
  unfold State.runOffPoints
  dsimp only
  split
  · exact State.ChannelsOk.pointEvents x _ ok
  · exact ok

/-! ## Timer expiries (R119 to R122) -/

section

variable {s : State} {k : ChanNum} {l : Latch} {pulse : Pulse}

/-- An idle timer has no expiry (R119). -/
theorem State.expire_idle (idle : (s.chans.get k).state.timer = none) : s.expire k = s := by
  unfold State.expire
  cases state : (s.chans.get k).state with
  | on l pulse =>
    rw [state] at idle
    exact if_pos (Option.isNone_iff_eq_none.mpr idle)
  | gap l pulse =>
    rw [state] at idle
    exact if_pos (Option.isNone_iff_eq_none.mpr idle)
  | _ => rfl

/-- A dot with dots to come is followed by a gap (R122). -/
theorem State.expire_dot (on : (s.chans.get k).state = .on l pulse) (runs : pulse.timer.isSome = true)
    (more : pulse.dots ≠ 0) : s.expire k = { s with chans := s.chans.put k { s.chans.get k with
      state := .gap l { pulse with timer := some (Timer.start (s.chans.get k).config.gap) } } } := by
  simp only [State.expire, on, Option.isNone_eq_false_iff.mpr runs, more, Bool.false_eq_true, if_false]
  rfl

/-- A gap is followed by the next dot (R122). -/
theorem State.expire_gap (gap : (s.chans.get k).state = .gap l pulse) (runs : pulse.timer.isSome = true) :
    s.expire k = { s with chans := s.chans.put k { s.chans.get k with
      state := .on l { pulse with
        dots := pulse.dots - 1, timer := some (Timer.start (s.chans.get k).config.dot) } } } := by
  simp only [State.expire, gap, Option.isNone_eq_false_iff.mpr runs, Bool.false_eq_true, if_false]
  rfl

/-- Any other expiry ends the pulse (R120 to R122). -/
theorem State.expire_last (on : (s.chans.get k).state = .on l pulse) (runs : pulse.timer.isSome = true)
    (last : pulse.dots = 0) : s.expire k = s.endPulse k l s.phu.count := by
  simp only [State.expire, on, Option.isNone_eq_false_iff.mpr runs, last, Bool.false_eq_true, if_false, if_true]

end

theorem State.ChannelsOk.expire {s : State} (ok : s.ChannelsOk) (k : ChanNum) : (s.expire k).ChannelsOk := by
  have line := State.SameLine.of_channelWork (s.expire_channelWork k)
  cases timer : (s.chans.get k).state.timer with
  | none => rwa [State.expire_idle timer]
  | some running =>
    cases state : (s.chans.get k).state with
    | on l pulse =>
      have runs : pulse.timer.isSome = true := by rw [state] at timer; exact Option.isSome_of_eq_some timer
      by_cases last : pulse.dots = 0
      · rw [State.expire_last state runs last]
        exact ok.endPulse (by rw [state]; rfl) l _
      · exact ok.pulsing line (congrArg State.chans (State.expire_dot state runs last)) (by rw [state]; rfl)
          (by rw [state]; rfl) rfl
    | gap l pulse =>
      have runs : pulse.timer.isSome = true := by rw [state] at timer; exact Option.isSome_of_eq_some timer
      exact ok.pulsing line (congrArg State.chans (State.expire_gap state runs)) (by rw [state]; rfl)
        (by rw [state]; rfl) rfl
    | _ => rw [state] at timer; exact absurd timer (Option.some_ne_none _).symm

/-! ## The start of inhibition (R90, R91) -/

@[simp] theorem Channel.spelled_latch (released : Bool) (ch : Channel) : (ch.spelled released).state.latch = none := by
  unfold Channel.spelled
  cases ch.state with
  | claimed => cases released <;> rfl
  | _ => rfl

theorem Channel.spelled_config (released : Bool) {ch : Channel} {l p : Nat} (ok : ch.Ok l p) :
    (ch.spelled released).config = ch.pending.getD ch.config := by
  cases pulse : ch.state.pulse with
  | none => simp [Channel.spelled, pulse, ok.pending_none pulse]
  | some x => simp [Channel.spelled, pulse]

/-- The pairs after the start of inhibition: a cut that leaves TIME_LONG releases the claim, and no other claim ends. -/
theorem State.ChannelsOk.pairs_spelled {s : State} (ok : s.ChannelsOk) {chans : Bank Channel 16}
    (state : ∀ k, (chans.get k).state = ((s.chans.get k).spelled (s.released k)).state)
    (long : ∀ k, (chans.get k).holdsLong = ((s.chans.get k).spelled (s.released k)).holdsLong) : PairsOk chans := by
  have claimed : ∀ k, (chans.get k).state = .claimed ↔ (s.chans.get k).state = .claimed ∧ s.released k = false := by
    intro k
    rw [state]
    unfold Channel.spelled
    cases (s.chans.get k).state with
    | claimed => cases s.released k <;> simp
    | _ => simp
  have next : ∀ k, (chans.get k).holdsLong
      = (((s.chans.get k).pending.getD (s.chans.get k).config).mode == .timeLong) := fun k =>
    (long k).trans (Channel.holdsLong_of_next (Channel.spelled_config _ (ok.each k)) rfl)
  refine ⟨fun k even => ?_, fun k even e => ok.even k even ((claimed k).mp e).1, fun k odd => ?_⟩
  · rw [claimed, next, ok.claimed k even, ← Bool.not_eq_true, State.released_iff]
    constructor
    · rintro ⟨before, kept⟩
      cases hp : (s.chans.get k).pending with
      | none => simpa [Channel.holdsLong, hp] using before
      | some c =>
        rw [Option.getD_some, beq_iff_eq]
        by_contra other
        obtain ⟨low, above⟩ := (pair_iff k (partnerOf k)).mp ⟨even, rfl⟩
        exact kept ⟨k, low, above, ((ok.each k).pending c hp).2, c, hp, other⟩
    · intro after
      refine ⟨Channel.holdsLong_of_next_long after, ?_⟩
      rintro ⟨j, low, above, -, c, hc, other⟩
      obtain ⟨even', pair⟩ := (pair_iff j (partnerOf k)).mpr ⟨low, above⟩
      rw [partnerOf_inj even even' pair, Option.mem_def.mp hc] at after
      exact other (beq_iff_eq.mp after)
  · rw [next, ← Bool.not_eq_true]
    exact fun h => Bool.noConfusion ((ok.odd k odd).symm.trans (Channel.holdsLong_of_next_long h))

theorem Channel.Ok.spelled {l p : Nat} {ch : Channel} (ok : ch.Ok l p) (released : Bool) : (ch.spelled released).Ok l p where
  config := by rw [Channel.spelled_config released ok]; exact ok.next
  pending := fun c h => absurd h (Option.some_ne_none c).symm
  leads := by simp
  overruns := ok.overruns

/-- A channel without a target while the absolute count is not presented. -/
theorem Channel.Ok.sound_hidden {l p : Nat} {ch : Channel} (ok : ch.Ok l p) (latch : ch.state.latch = none) :
    ch.Sound l p false :=
  ⟨ok, by simp [latch], fun _ => rfl, fun shown => Bool.noConfusion shown⟩

/-- Inhibition that begins keeps the invariant, whatever phase and debt it begins with. -/
theorem State.ChannelsOk.beginInhibition {s t : State} (ok : s.ChannelsOk) (hidden : t.phu.presented = false)
    (chans : t.chans = s.chans := by rfl) (l : t.ttb.l = s.ttb.l := by rfl) (p : t.phu.p = s.phu.p := by rfl) :
    t.beginInhibition.ChannelsOk := by
  have work := t.beginInhibition_channelWork
  have get : ∀ k, t.beginInhibition.chans.get k = (s.chans.get k).spelled (s.released k) := fun k => by
    rw [State.beginInhibition_get (ok.pairsHeld.of_chans chans) k (by rw [chans]; exact ok.staged_pulse k),
      State.released_of_chans chans, chans]
  refine (State.SameLine.of_channelWork work).channelsOk (fun k => ?_)
    (ok.pairs_spelled (fun k => by rw [get]) (fun k => by rw [get]))
  rw [get, hidden, l, p]
  exact ((ok.each k).spelled _).sound_hidden (Channel.spelled_latch _ _)

/-! ## The end of inhibition (R91) -/

theorem Channel.Sound.resume {l p : Nat} {ch : Channel} (h : ch.Sound l p false) (repaid : Bool) (speed : Int) (x : Count) :
    (ch.resume repaid p speed x).Sound l p true := by
  have bare : ch.state.latch.isSome ≠ true := fun e => Bool.noConfusion (h.held e)
  rw [Channel.resume]
  split
  · next waits =>
    refine ⟨⟨h.ok.config, fun c hc => ?_, ?_, h.ok.overruns⟩, fun _ => rfl, fun e => ChanState.noConfusion e,
      fun _ => ⟨rfl, rfl⟩⟩
    · rw [h.ok.pending_none (by rw [waits]; rfl)] at hc
      exact absurd hc (Option.some_ne_none c).symm
    · rintro x hx
      exact Option.some.inj hx ▸ ch.config.latchFor_leads p speed _
  · next waits =>
    exact ⟨⟨h.ok.config, h.ok.pending, h.ok.leads, h.ok.overruns⟩, fun _ => rfl, fun e => absurd e waits,
      fun _ => ⟨rfl, rfl⟩⟩

theorem Channel.resume_pair (ch : Channel) (repaid : Bool) (p : Nat) (speed : Int) (x : Count) :
    ((ch.resume repaid p speed x).state = .claimed ↔ ch.state = .claimed) ∧
      (ch.resume repaid p speed x).holdsLong = ch.holdsLong := by
  rw [Channel.resume]
  split
  · next waits => simp [waits, Channel.holdsLong]
  · exact ⟨Iff.rfl, rfl⟩

/-- Inhibition that ends keeps the invariant: the absolute count is presented now and was not before. -/
theorem State.ChannelsOk.endInhibition {s t : State} (ok : s.ChannelsOk) (hidden : s.phu.presented = false)
    (shown : t.phu.presented = true) (repaid : Bool) (chans : t.chans = s.chans := by rfl)
    (l : t.ttb.l = s.ttb.l := by rfl) (p : t.phu.p = s.phu.p := by rfl) : (t.endInhibition repaid).ChannelsOk := by
  have get : ∀ k, (t.endInhibition repaid).chans.get k
      = (s.chans.get k).resume repaid s.phu.p t.phu.speed t.phu.count := fun k => by
    rw [State.endInhibition_get, chans, p]
  refine (State.SameLine.of_channelWork (t.endInhibition_channelWork repaid)).channelsOk (fun k => ?_)
    (ok.pairs.of_same (fun k => ?_) fun k => ?_)
  · have sound := ok.sound k
    rw [hidden] at sound
    rw [get, shown, l, p]
    exact sound.resume repaid _ _
  · rw [get]
    exact (Channel.resume_pair _ _ _ _ _).1
  · rw [get]
    exact (Channel.resume_pair _ _ _ _ _).2

/-! ## Counts (R2, R8, R9) -/

/-- Neither the level of mc nor what a count notes touches the channels. -/
theorem State.ChannelsOk.counted {s : State} (ok : s.ChannelsOk) (d : Dir) (jumped : Bool) (mc : Nat) :
    (s.counted d jumped mc).ChannelsOk :=
  ok.same ⟨rfl, rfl, rfl, rfl⟩ rfl

theorem State.ChannelsOk.countMissing {s : State} (ok : s.ChannelsOk) : s.countMissing.ChannelsOk := by
  refine ok.same ?_ s.countMissing_chans
  rw [State.countMissing_frame]
  exact ⟨rfl, rfl, rfl, rfl⟩

theorem State.ChannelsOk.advance {s : State} (ok : s.ChannelsOk) (feed splice : Bool) :
    (s.advance feed splice).ChannelsOk := by
  refine ok.same ?_ (s.advance_chans feed splice)
  rw [State.advance_frame]
  exact ⟨rfl, rfl, rfl, rfl⟩

theorem State.ChannelsOk.advanceCount {s : State} (ok : s.ChannelsOk) (feed splice : Bool) :
    (s.advanceCount feed splice).ChannelsOk := by
  obtain ⟨early, late, -, -, -, eq⟩ := s.advanceCount_eq feed splice _ rfl
  generalize (⟨s.phu.cycle + 1, 0⟩ : Count) = x at eq
  have after := State.ChannelsOk.pointEvents x late
    (((State.ChannelsOk.pointEvents x early ok).countMissing).advance feed splice)
  rw [eq]
  exact after.same ⟨rfl, rfl, rfl, rfl⟩ rfl

theorem Phu.presented_of_debt {u : Phu} (debt : u.debt ≠ 0) : u.presented = false := by
  simp [Phu.presented, debt]

/-- A step of a debt repaid keeps the inhibition, and the last one ends it (R91). -/
theorem State.ChannelsOk.repay {s : State} (ok : s.ChannelsOk) (synced : s.phu.phase = .synced) (debt : s.phu.debt ≠ 0) :
    s.repay.ChannelsOk := by
  have hidden := Phu.presented_of_debt debt
  by_cases last : s.phu.debt - 1 = 0
  · rw [show s.repay = State.endInhibition true (s.modPhu fun u => { u with debt := u.debt - 1 }) by
      simp [State.repay, last]]
    refine ok.endInhibition hidden ?_ true
    simp [Phu.presented, synced, last]
  · have frame := s.repay_frame
    rw [State.repay_chans_owing s (by omega)] at frame
    rw [frame, State.channelsOk_iff]
    rw [State.channelsOk_iff, hidden] at ok
    rwa [Phu.presented_of_debt last]

theorem State.ChannelsOk.countForward {s : State} (ok : s.ChannelsOk) (jumped feed splice : Bool) :
    (s.countForward jumped feed splice).ChannelsOk := by
  by_cases inside : s.phu.mc + 1 < s.phu.p
  · rw [State.countForward_inside jumped feed splice inside]
    exact (ok.counted _ _ _).runPoints _
  · have zero := ok.counted .forward jumped 0
    by_cases phase : s.phu.phase = .unsynced
    · rwa [State.countForward_wrap jumped feed splice inside phase]
    · have synced := PhaseState.synced_of_ne phase
      by_cases debt : s.phu.debt = 0
      · rw [State.countForward_advance jumped feed splice inside synced debt]
        exact zero.advanceCount feed splice
      · rw [State.countForward_repay jumped feed splice inside synced debt]
        exact zero.countMissing.repay (by rw [State.countMissing_phu]; exact synced)
          (by rw [State.countMissing_phu]; exact debt)

/-- A backward crossing starts inhibition from no debt, ends it from a debt of 15, and else prolongs it (R8). -/
theorem State.ChannelsOk.crossBackward {s : State} (ok : s.ChannelsOk) (synced : s.phu.phase = .synced) :
    s.crossBackward.ChannelsOk := by
  by_cases none : s.phu.debt = 0
  · rw [State.crossBackward_start none]
    exact ok.beginInhibition (Phu.presented_of_debt Nat.one_ne_zero)
  · have hidden := Phu.presented_of_debt none
    by_cases more : s.phu.debt < 15
    · rw [State.crossBackward_more none more, State.channelsOk_iff]
      rw [State.channelsOk_iff, hidden] at ok
      rwa [State.modPhu_phu, Phu.presented_of_debt (Nat.succ_ne_zero _)]
    · rw [State.crossBackward_overflow (by omega)]
      refine ok.endInhibition hidden ?_ false
      simp [State.enterLost, Phu.presented, synced]

theorem State.ChannelsOk.countBackward {s : State} (ok : s.ChannelsOk) (jumped : Bool) :
    (s.countBackward jumped).ChannelsOk := by
  by_cases zero : s.phu.mc = 0
  · have top := ok.counted .backward jumped (s.phu.p - 1)
    by_cases phase : s.phu.phase = .unsynced
    · rwa [State.countBackward_wrap jumped zero phase]
    · rw [State.countBackward_crossing jumped zero (PhaseState.synced_of_ne phase)]
      exact top.crossBackward (PhaseState.synced_of_ne phase)
  · rw [State.countBackward_inside jumped zero]
    exact (ok.counted _ _ _).runOffPoints _

/-! ## Index edges (R4, R5) -/

theorem State.ChannelsOk.synchronise {s : State} (ok : s.ChannelsOk) (phu : s.phu.Ok) (phase : s.phu.phase = .unsynced) :
    s.synchronise.ChannelsOk := by
  have debt := phu.unsynced phase
  rw [State.synchronise_ends debt]
  refine ok.endInhibition (Phu.presented_unsynced phase) ?_ false
  simp [Phu.presented, debt]

theorem State.slipIf_line (s : State) (beyond : Bool) : s.SameLine (s.slipIf beyond) := by
  cases beyond <;> exact ⟨rfl, rfl, rfl, rfl⟩

/-- The crossing of an early edge, with what every edge does to mc and the counter, keeps the invariant. -/
theorem State.ChannelsOk.edgeWhole {s : State} (ok : s.ChannelsOk) (synced : s.phu.phase = .synced)
    (crosses beyond feed splice : Bool) : (s.edgeWhole crosses beyond feed splice).ChannelsOk := by
  have zero : (s.modPhu fun u => { u with mc := 0 }).ChannelsOk := ok.same ⟨rfl, rfl, rfl, rfl⟩ rfl
  have crossed : (s.edgeCrossed crosses feed splice).ChannelsOk := by
    cases crosses with
    | false => exact zero
    | true =>
      have counted := zero.countMissing
      rw [State.edgeCrossed, if_pos rfl, State.crossForward]
      split
      · exact counted.advance feed splice
      · next debt => exact counted.repay (by rw [State.countMissing_phu]; exact synced) debt
  rw [State.edgeWhole_eq]
  exact (crossed.same (State.slipIf_line _ beyond) (State.slipIf_chans _ beyond)).same ⟨rfl, rfl, rfl, rfl⟩ rfl

theorem State.ChannelsOk.index {s : State} (ok : s.ChannelsOk) (phu : s.phu.Ok) (feed splice : Bool) :
    (s.index feed splice).ChannelsOk := by
  by_cases forward : s.phu.lastDir = some .forward
  · by_cases phase : s.phu.phase = .unsynced
    · rw [State.index_unsynced feed splice forward phase]
      exact ok.synchronise phu phase
    · have synced := PhaseState.synced_of_ne phase
      rw [State.index_synced feed splice forward synced, State.correct_eq]
      dsimp only
      split
      · exact (ok.edgeWhole synced _ _ feed splice).runPoints _
      · exact ok.edgeWhole synced _ _ feed splice
  · rwa [State.index_ignored feed splice forward]

/-! ## The CLK period and the resets -/

@[simp] theorem ChanState.tick_latch (c : ChanState) : c.tick.latch = c.latch := by cases c <;> rfl

theorem ChanState.tick_pulse (c : ChanState) : c.tick.pulse.isSome = c.pulse.isSome := by cases c <;> rfl

theorem ChanState.tick_waiting (c : ChanState) : c.tick = .waiting ↔ c = .waiting := by cases c <;> simp [ChanState.tick]

theorem ChanState.tick_claimed (c : ChanState) : c.tick = .claimed ↔ c = .claimed := by cases c <;> simp [ChanState.tick]

theorem Channel.Sound.tick {l p : Nat} {presented : Bool} {ch : Channel} (h : ch.Sound l p presented) :
    ch.tick.Sound l p presented where
  ok := ⟨h.ok.config,
    fun c hc => ⟨(h.ok.pending c hc).1, by rw [Channel.tick, ChanState.tick_pulse]; exact (h.ok.pending c hc).2⟩,
    fun x hx => h.ok.leads x (by rwa [Channel.tick, ChanState.tick_latch] at hx), h.ok.overruns⟩
  held := by rw [Channel.tick, ChanState.tick_latch]; exact h.held
  waiting := fun waits => h.waiting ((ChanState.tick_waiting _).mp waits)
  spell := h.spell

theorem State.ChannelsOk.tick {s : State} (ok : s.ChannelsOk) : s.tick.ChannelsOk := by
  have get : ∀ k, s.tick.chans.get k = (s.chans.get k).tick := fun k => Bank.get_map _ _ k
  refine State.SameLine.channelsOk (s := s) ⟨rfl, rfl, rfl, rfl⟩ (fun k => ?_) (ok.pairs.of_same (fun k => ?_) fun k => ?_)
  · rw [get]; exact (ok.sound k).tick
  · rw [get]; exact ChanState.tick_claimed _
  · rw [get]; rfl

end Sys2Proof.Machine

/-! PROOFS. What SET_LINE, ENABLE_CHANNEL and DISABLE_CHANNEL make of the channels' invariant. -/

namespace Sys2Proof.Machine

/-! ## SET_LINE (R42, R107) -/

theorem ChanConfig.Ok.relined {l p n : Nat} {c : ChanConfig} (ok : c.Ok l p) (fits : c.sp < n) : c.Ok n p :=
  { ok with station := fits }

/-- A sound configuration brought within a new P is sound there. -/
theorem ChanConfig.Ok.clampTo {l p : Nat} {c : ChanConfig} (ok : c.Ok l p) {counts : Nat} (pos : 0 < counts) :
    (c.clampTo counts).Ok l counts where
  station := ok.station
  onAngle := (c.clampTo_within pos).1
  leadLimit := (c.clampTo_within pos).2.2
  latencyOn := ok.latencyOn
  latencyOff := ok.latencyOff
  minSpeed := ok.minSpeed
  mode := by
    have mode := ok.mode
    have angle := (c.clampTo_within pos).2.1
    unfold ChanConfig.modeOk at mode ⊢
    rw [show (c.clampTo counts).mode = c.mode from rfl]
    cases h : c.mode with
    | angle => exact decide_eq_true angle
    | _ => rw [h] at mode; exact mode

theorem Channel.clampTo_holdsLong (p : Nat) (ch : Channel) : (ch.clampTo p).holdsLong = ch.holdsLong := by
  simp [Channel.holdsLong, Channel.clampTo, ChanConfig.clampTo, Option.any_map]

/-- What a changed P leaves of a channel that has begun inhibition. -/
theorem Channel.Ok.clampTo {l p counts : Nat} {ch : Channel} (ok : ch.Ok l p) (staged : ch.pending = none)
    (latch : ch.state.latch = none) (pos : 0 < counts) : (ch.clampTo counts).Ok l counts where
  config := ok.config.clampTo pos
  pending := by simp [Channel.clampTo, staged]
  leads := by simp [Channel.clampTo, latch]
  overruns := ok.overruns

/-- A taken SET_LINE keeps the invariant: with the same P every configuration fits the new L, and with another P
inhibition begins and every configuration is brought within it. -/
theorem State.ChannelsOk.takeLine {s : State} (ok : s.ChannelsOk) {l kc counts : Nat}
    (operands : s.lineOperandsOk l kc counts = true) (t : Nat) : (s.takeLine l kc counts t).ChannelsOk := by
  obtain ⟨-, -, -, -, low, -, fits⟩ := (s.lineOperandsOk_iff l kc counts).mp operands
  have relined : ∀ k, (s.chans.get k).Ok l s.phu.p := fun k =>
    ⟨(ok.each k).config.relined (fits k).1,
      fun c hc => ⟨((ok.each k).pending c hc).1.relined ((fits k).2 c hc), ((ok.each k).pending c hc).2⟩,
      (ok.each k).leads, (ok.each k).overruns⟩
  rw [State.channelsOk_iff, s.takeLine_ttb l kc t counts]
  by_cases same : counts = s.phu.p
  · rw [State.takeLine_same l kc t same]
    exact ⟨fun k => ⟨relined k, ok.held k, ok.waiting k, ok.spell k⟩, ok.pairs⟩
  · have phu := State.takeLine_phu l kc t same
    have get := fun k => State.takeLine_get_spelled l kc t same ok.pairsHeld k (ok.staged_pulse k)
    refine ⟨fun k => ?_, ok.pairs_spelled (fun k => by rw [get]; rfl) fun k => by rw [get, Channel.clampTo_holdsLong]⟩
    rw [get, phu]
    exact (((relined k).spelled _).clampTo rfl (Channel.spelled_latch _ _) (Nat.zero_lt_of_lt low)).sound_hidden
      (Channel.spelled_latch _ _)

theorem State.ChannelsOk.setLine {s : State} (ok : s.ChannelsOk) (p : PortNum) (l kc counts t : Nat) :
    (s.setLine p l kc counts t).ChannelsOk := by
  by_cases operands : s.lineOperandsOk l kc counts = true
  · by_cases idle : s.lineIdle = true
    · rw [State.setLine_taken p t operands idle]
      exact (ok.takeLine operands t).same ⟨rfl, rfl, rfl, rfl⟩ rfl
    · rw [State.setLine_busy p t operands idle]
      exact ok.same ⟨rfl, rfl, rfl, rfl⟩ rfl
  · rw [State.setLine_range p t operands]
    exact ok.same ⟨rfl, rfl, rfl, rfl⟩ rfl

/-! ## ENABLE_CHANNEL and DISABLE_CHANNEL (R104, R105) -/

section

variable {s : State} {k : ChanNum}

/-- A disabled channel that is enabled while the absolute count is presented: armed with no due cycle. -/
theorem State.enable_presented (shown : s.phu.presented = true) : s.enable k = { s with
    chans := s.chans.put k { s.chans.get k with
      due := none, state := .armed ((s.chans.get k).config.latch s.phu.p s.phu.speed s.phu.count) } } := by
  simp only [State.enable, shown, if_true, State.arm, State.modChan_chans, Bank.get_modify_same]
  show State.modChan k (Channel.armAt s.phu.p s.phu.speed s.phu.count) (s.modChan k fun ch => { ch with due := none }) = _
  simp only [State.modChan, Bank.modify, Bank.get_put_same, Bank.put_put]
  rfl

theorem State.enable_hidden (hidden : s.phu.presented = false) : s.enable k = { s with
    chans := s.chans.put k { s.chans.get k with due := none, state := .waiting } } := by
  simp only [State.enable, hidden, Bool.false_eq_true, if_false]
  rfl

/-- A change that is put at channel `k` alone, keeping its configurations. -/
theorem State.ChannelsOk.put (ok : s.ChannelsOk) {t : State} {new : Channel} (line : s.SameLine t)
    (chans : t.chans = s.chans.put k new) (claimed : (s.chans.get k).state ≠ .claimed) (free : new.state ≠ .claimed)
    (sound : new.Sound s.ttb.l s.phu.p s.phu.presented) (config : new.config = (s.chans.get k).config := by rfl)
    (staged : new.pending = (s.chans.get k).pending := by rfl) : t.ChannelsOk := by
  have self : t.chans.get k = new := by rw [chans, Bank.get_put_same]
  refine ok.changed_within line (fun j apart => by rw [chans, Bank.get_put_ne _ _ apart]) ?_ claimed
    (by rwa [self]) (by rwa [self])
  rw [self, Channel.holdsLong, config, staged, Channel.holdsLong]

theorem State.ChannelsOk.enable (ok : s.ChannelsOk) (disabled : (s.chans.get k).state = .disabled) :
    (s.enable k).ChannelsOk := by
  have sound := ok.sound k
  have staged := (ok.each k).pending_none (by rw [disabled]; rfl)
  have line := State.SameLine.of_channelWork (s.enable_channelWork k)
  have free : (s.chans.get k).state ≠ .claimed := by simp [disabled]
  cases shown : s.phu.presented with
  | true =>
    refine ok.put line (congrArg State.chans (State.enable_presented shown)) free (fun e => ChanState.noConfusion e) ?_
    exact sound.armed shown s.phu.speed _ sound.ok.config staged rfl sound.ok.overruns
  | false =>
    refine ok.put line (congrArg State.chans (State.enable_hidden shown)) free (fun e => ChanState.noConfusion e) ?_
    rw [shown]
    exact Channel.Ok.sound_hidden ⟨sound.ok.config, by simp [staged], fun x hx => absurd hx (Option.some_ne_none x).symm,
      sound.ok.overruns⟩ rfl

theorem State.ChannelsOk.cutPulse_disabled (ok : s.ChannelsOk) (k : ChanNum) : (s.cutPulse .disabled k).ChannelsOk := by
  cases pulse : (s.chans.get k).state.pulse with
  | none => rwa [State.cutPulse_none .disabled s k pulse]
  | some x =>
    have self := s.cutPulse_get_self .disabled k x pulse
    refine ok.changed_staged (.of_channelWork (s.cutPulse_channelWork .disabled k)) (by rw [self]) (by rw [self])
      (fun j apart => State.cutPulse_get_pulse .disabled pulse apart)
      (ChanState.ne_claimed_of_latch (ChanState.latch_of_pulse (Option.isSome_of_eq_some pulse)))
      (by rw [self]; exact fun e => ChanState.noConfusion e) ?_
    rw [self]
    exact (ok.sound k).idle (ok.each k).next rfl rfl fun e => ChanState.noConfusion e

/-- A channel without a pulse put to DISABLED. -/
theorem State.ChannelsOk.silenced (ok : s.ChannelsOk) (claimed : (s.chans.get k).state ≠ .claimed)
    (pulse : (s.chans.get k).state.pulse = none) :
    (s.modChan k fun ch => { ch with state := .disabled, due := none }).ChannelsOk :=
  ok.put ⟨rfl, rfl, rfl, rfl⟩ rfl claimed (fun e => ChanState.noConfusion e)
    ((ok.sound k).idle (ok.each k).config ((ok.each k).pending_none pulse) rfl fun e => ChanState.noConfusion e)

theorem State.ChannelsOk.disable (ok : s.ChannelsOk) (k : ChanNum) : (s.disable k).ChannelsOk := by
  unfold State.disable
  cases state : (s.chans.get k).state with
  | disabled => exact ok
  | claimed => exact ok
  | waiting => exact ok.silenced (by simp [state]) (by rw [state]; rfl)
  | armed l => exact ok.silenced (by simp [state]) (by rw [state]; rfl)
  | on l pulse => exact ok.cutPulse_disabled k
  | gap l pulse => exact ok.cutPulse_disabled k

end

end Sys2Proof.Machine

/-! PROOFS. The configurations SET_CHANNEL carries (R86, R103, R110, R179): ConfigurationsAreChecked (O44). -/

namespace Sys2Proof.Machine

/-! ## The bytes that name a gate, a stamp and a mode (Table 10-3) -/

theorem resultFields_code {n : Nat} {f : ResultField} (h : resultFieldOf n = some f) : resultFields[n - 2]? = some f := by
  rw [resultFieldOf_eq_some h]
  cases f <;> rfl

/-- What a gate says of the bytes that name it; the field byte is read for PRESENT_AFTER alone. -/
theorem namedGate_eq_some {b field : Byte} {g : Gate} (named : namedGate b field = some g) : match g with
    | .always => b.toNat = 0
    | .present => b.toNat = 1
    | .presentAfter f => b.toNat = 2 ∧ resultFieldOf field.toNat = some f
    | .rejected => b.toNat = 3
    | .sample => b.toNat = 4
    | .batchEnd => b.toNat = 5 := by
  unfold namedGate at named
  split at named
  case h_3 value =>
    obtain ⟨f, hf, rfl⟩ := Option.map_eq_some_iff.mp named
    exact ⟨value, hf⟩
  all_goals cases named
  all_goals assumption

theorem namedGate_isSome (b field : Byte) : (namedGate b field).isSome = true ↔
    b.toNat ≤ 5 ∧ (b.toNat = 2 → 2 ≤ field.toNat ∧ field.toNat ≤ 7) := by
  rw [← resultFieldOf_isSome]
  unfold namedGate
  generalize b.toNat = n
  match n with
  | 0 | 1 | 2 | 3 | 4 | 5 | n + 6 => simp

theorem Gate.mayStamp_of_named {b field : Byte} {g : Gate} (named : namedGate b field = some g) :
    g.mayStamp = true ↔ b.toNat = 1 ∨ b.toNat = 2 := by
  have value := namedGate_eq_some named
  cases g with
  | presentAfter f => simp [Gate.mayStamp, value.1]
  | _ => simp [Gate.mayStamp, show b.toNat = _ from value]

theorem namedStamp_isSome (g : Gate) (b : Byte) : (namedStamp g b).isSome = true ↔
    (b ≠ 0xFF → g.mayStamp = true ∧ 2 ≤ b.toNat ∧ b.toNat ≤ 7) := by
  rw [← resultFieldOf_isSome]
  unfold namedStamp
  by_cases unstamped : b = 0xFF
  · simp [unstamped]
  · rw [if_neg unstamped, imp_iff_right unstamped]
    cases g.mayStamp <;> simp

theorem namedStamp_eq_some {g : Gate} {b : Byte} {x : Option ResultField} (named : namedStamp g b = some x) :
    x = if b = 0xFF then none else resultFields[b.toNat - 2]? := by
  unfold namedStamp at named
  by_cases unstamped : b = 0xFF
  · rw [if_pos unstamped] at named ⊢
    exact (Option.some.inj named).symm
  · rw [if_neg unstamped] at named ⊢
    split at named
    · obtain ⟨f, hf, rfl⟩ := Option.map_eq_some_iff.mp named
      exact (resultFields_code hf).symm
    · cases named

theorem namedMode_eq (b : Byte) : namedMode b = [PulseMode.angle, .time, .timeLong, .dots][b.toNat]? := by
  unfold namedMode
  generalize b.toNat = n
  match n with
  | 0 | 1 | 2 | 3 | n + 4 => rfl

theorem namedMode_isSome (b : Byte) : (namedMode b).isSome = true ↔ b.toNat ≤ 3 := by
  rw [namedMode_eq, isSome_getElem?]
  simp only [List.length_cons, List.length_nil]
  omega

/-! ## The configuration as a whole (R103) -/

/-- The configuration that the bytes carry, its latencies and lead limit clamped (R86, R110). -/
def carriedConfig (p : Nat) (raw : RawConfig) (gate : Gate) (stamp : Option ResultField) (mode : PulseMode) :
    ChanConfig where
  sp := raw.sp.toNat
  gate := gate
  stamp := stamp
  onAngle := raw.onAngle.toNat
  offAngle := raw.offAngle.toNat
  mode := mode
  duration := raw.duration.toNat
  longDuration := raw.longDuration.toNat
  dotCount := raw.dotCount.toNat
  dot := raw.dot.toNat
  gap := raw.gap.toNat
  latencyOn := min raw.latencyOn.toNat 20000
  latencyOff := min raw.latencyOff.toNat 20000
  leadLimit := min raw.leadLimit.toNat (p - 1)
  minSpeed := raw.minSpeed.toNat

/-- The numbers of a configuration that are refused rather than clamped (R103). -/
def ChanConfig.InRange (l p : Nat) (odd : Bool) (c : ChanConfig) : Prop :=
  c.sp < l ∧ c.onAngle < p ∧ c.minSpeed ≤ 32767 ∧ c.modeOk p odd = true

theorem namedConfig_eq_some (l p : Nat) (odd : Bool) (raw : RawConfig) (c : ChanConfig) :
    namedConfig l p odd raw = some c ↔ ∃ gate mode stamp, namedGate raw.gate raw.gateField = some gate ∧
      namedMode raw.mode = some mode ∧ namedStamp gate raw.stamp = some stamp ∧
      (carriedConfig p raw gate stamp mode).InRange l p odd ∧ c = carriedConfig p raw gate stamp mode := by
  constructor
  · intro named
    unfold namedConfig at named
    split at named
    · next gate mode hg hm =>
      split at named
      · next stamp hs =>
        dsimp only at named
        split at named
        · next fits => exact ⟨gate, mode, stamp, hg, hm, hs, fits, (Option.some.inj named).symm⟩
        · cases named
      · cases named
    · cases named
  · rintro ⟨gate, mode, stamp, hg, hm, hs, fits, rfl⟩
    simp only [namedConfig, hg, hm, hs]
    exact if_pos fits

/-- What is asked of the operands of each mode (R103). -/
theorem ChanConfig.modeOk_iff (p : Nat) (odd : Bool) (c : ChanConfig) : c.modeOk p odd = true ↔
    (c.mode = .angle → c.offAngle < p) ∧ (c.mode = .time → c.duration ≠ 0) ∧
    (c.mode = .timeLong → c.longDuration ≠ 0 ∧ odd = false) ∧
    (c.mode = .dots → 1 ≤ c.dotCount ∧ c.dotCount ≤ 15 ∧ c.dot ≠ 0 ∧ c.gap ≠ 0) := by
  unfold ChanConfig.modeOk
  cases c.mode <;> simp [and_assoc]

theorem namedConfig_ok {l p : Nat} {odd : Bool} {raw : RawConfig} {c : ChanConfig} (pos : 1 ≤ p)
    (named : namedConfig l p odd raw = some c) : c.Ok l p := by
  obtain ⟨gate, mode, stamp, -, -, -, ⟨station, angle, speed, modeOk⟩, rfl⟩ := (namedConfig_eq_some l p odd raw c).mp named
  refine ⟨station, angle, ?_, Nat.min_le_right _ _, Nat.min_le_right _ _, speed, ?_⟩
  · show min _ (p - 1) < p
    omega
  · rw [ChanConfig.modeOk_iff] at modeOk ⊢
    obtain ⟨angle, time, long, dots⟩ := modeOk
    exact ⟨angle, time, fun h => ⟨(long h).1, rfl⟩, dots⟩

/-- An odd channel is given no TIME_LONG (R102, R103). -/
theorem namedConfig_short {l p : Nat} {raw : RawConfig} {c : ChanConfig} (named : namedConfig l p true raw = some c) :
    c.mode ≠ .timeLong := by
  obtain ⟨gate, mode, stamp, -, -, -, ⟨-, -, -, modeOk⟩, rfl⟩ := (namedConfig_eq_some l p true raw c).mp named
  exact fun long => Bool.noConfusion (((ChanConfig.modeOk_iff _ _ _).mp modeOk).2.2.1 long).2

/-- A configuration of the raw bytes with a gate, a stamp and a mode named is refused for its numbers alone. -/
theorem namedConfig_isSome (l p : Nat) (odd : Bool) (raw : RawConfig) : (namedConfig l p odd raw).isSome = true ↔
    ∃ gate mode stamp, namedGate raw.gate raw.gateField = some gate ∧ namedMode raw.mode = some mode ∧
      namedStamp gate raw.stamp = some stamp ∧ (carriedConfig p raw gate stamp mode).InRange l p odd := by
  rw [Option.isSome_iff_exists]
  constructor
  · rintro ⟨c, named⟩
    obtain ⟨gate, mode, stamp, hg, hm, hs, fits, -⟩ := (namedConfig_eq_some l p odd raw c).mp named
    exact ⟨gate, mode, stamp, hg, hm, hs, fits⟩
  · rintro ⟨gate, mode, stamp, hg, hm, hs, fits⟩
    exact ⟨_, (namedConfig_eq_some l p odd raw _).mpr ⟨gate, mode, stamp, hg, hm, hs, fits, rfl⟩⟩

/-- The checks of the mode's own operands, by the mode byte (R103). -/
theorem carriedConfig_modeOk {p : Nat} {odd : Bool} {raw : RawConfig} {gate : Gate} {stamp : Option ResultField}
    {mode : PulseMode} (named : namedMode raw.mode = some mode) :
    (carriedConfig p raw gate stamp mode).modeOk p odd = true ↔
      (raw.mode.toNat = 0 → raw.offAngle.toNat < p) ∧ (raw.mode.toNat = 1 → raw.duration ≠ 0) ∧
      (raw.mode.toNat = 2 → raw.longDuration ≠ 0 ∧ odd = false) ∧
      (raw.mode.toNat = 3 → 1 ≤ raw.dotCount.toNat ∧ raw.dotCount.toNat ≤ 15 ∧ raw.dot ≠ 0 ∧ raw.gap ≠ 0) := by
  have nonzero : ∀ {n : Nat} (x : BitVec n), x.toNat ≠ 0 ↔ x ≠ 0 := fun x => by
    rw [ne_eq, ne_eq, ← BitVec.toNat_inj]
    rfl
  rw [ChanConfig.modeOk_iff]
  simp only [carriedConfig, nonzero]
  unfold namedMode at named
  split at named
  all_goals cases named
  all_goals next value => simp [value]

/-- Settles O44: the bytes name a gate, a mode and a stamp each by its own table, and the numbers by their ranges. -/
theorem configurationsAreChecked : Obligations.ConfigurationsAreChecked := by
  rintro l p odd raw fields pos rfl
  refine ⟨?_, fun c named => ?_⟩
  · rw [namedConfig_isSome]
    constructor
    · rintro ⟨gate, mode, stamp, hg, hm, hs, station, angle, speed, operands⟩
      obtain ⟨gateByte, fieldByte⟩ := (namedGate_isSome _ _).mp (Option.isSome_of_eq_some hg)
      have stampByte := (namedStamp_isSome gate _).mp (Option.isSome_of_eq_some hs)
      rw [Gate.mayStamp_of_named hg] at stampByte
      exact ⟨station, angle, speed, gateByte, fieldByte, stampByte, (namedMode_isSome _).mp (Option.isSome_of_eq_some hm),
        (carriedConfig_modeOk hm).mp operands⟩
    · rintro ⟨station, angle, speed, gateByte, fieldByte, stampByte, modeByte, operands⟩
      obtain ⟨gate, hg⟩ := Option.isSome_iff_exists.mp ((namedGate_isSome _ _).mpr ⟨gateByte, fieldByte⟩)
      obtain ⟨mode, hm⟩ := Option.isSome_iff_exists.mp ((namedMode_isSome _).mpr modeByte)
      rw [← Gate.mayStamp_of_named hg] at stampByte
      obtain ⟨stamp, hs⟩ := Option.isSome_iff_exists.mp ((namedStamp_isSome gate _).mpr stampByte)
      exact ⟨gate, mode, stamp, hg, hm, hs, station, angle, speed, (carriedConfig_modeOk hm).mpr operands⟩
  · have ok := namedConfig_ok pos named
    obtain ⟨gate, mode, stamp, hg, hm, hs, -, rfl⟩ := (namedConfig_eq_some l p odd raw c).mp named
    refine ⟨?_, namedStamp_eq_some hs, (namedMode_eq _).symm.trans hm |>.symm, rfl, rfl, rfl, rfl, rfl, rfl, rfl, rfl, rfl,
      rfl, rfl, rfl, ok⟩
    have value := namedGate_eq_some hg
    cases gate with
    | presentAfter f =>
      obtain ⟨two, field⟩ := value
      rw [two]
      exact (congrArg (Option.map Gate.presentAfter) (resultFields_code field)).symm
    | _ => rw [show raw.gate.toNat = _ from value]; rfl

end Sys2Proof.Machine

/-! PROOFS. SET_CHANNEL and ENABLE_CHANNEL by the state of the channel: SetChannelActsByState (O43) and EnableArmsOrWaits
(O45). -/

namespace Sys2Proof.Machine

/-! ## Storing a configuration (R99, R102) -/

/-- The channel after a configuration is stored: held pending in a pulse, applied and armed anew with `new` against the old
target where it is ARMED, and else applied at once. -/
def Channel.stored (c : ChanConfig) (new : Latch) (ch : Channel) : Channel :=
  match ch.state with
  | .on _ _ => { ch with pending := some c }
  | .gap _ _ => { ch with pending := some c }
  | .armed l => Channel.rearmed l.ct new { ch with config := c, pending := none }
  | _ => { ch with config := c, pending := none }

section

variable (s : State) (k : ChanNum) (c : ChanConfig)

/-- Channel `k` with a configuration stored, against the count as it stands. -/
def State.storedChan : Channel := (s.chans.get k).stored c (c.latch s.phu.p s.phu.speed s.phu.count)

theorem State.settlePair_modChan_get_self (f : Channel → Channel) :
    ((s.modChan k f).settlePair k).chans.get k = f (s.chans.get k) := by
  rw [State.settlePair_get_self, State.modChan_chans, Bank.get_modify_same]

theorem State.settlePair_modChan_get_ne (f : Channel → Channel) {j : ChanNum} (apart : j ≠ k) :
    ((s.modChan k f).settlePair k).chans.get j = if isEven k = true ∧ j = partnerOf k then
      (s.chans.get j).pairWith (((s.modChan k f).settlePair k).chans.get k).holdsLong else s.chans.get j := by
  rw [State.settlePair_get, State.settlePair_get_self, State.modChan_chans, Bank.get_modify_ne _ _ apart]

theorem State.storeConfig_get_self : (s.storeConfig k c).chans.get k = s.storedChan k c := by
  unfold State.storeConfig
  split
  · next state =>
    rw [State.settlePair_modChan_get_self]
    simp only [State.storedChan, Channel.stored, state]
  · next state =>
    rw [State.settlePair_modChan_get_self]
    simp only [State.storedChan, Channel.stored, state]
  · next state =>
    rw [State.arm_chans, Bank.get_modify_same, State.settlePair_modChan_get_self, (State.settlePair_channelWork _ k).phu]
    simp only [State.storedChan, Channel.stored, state]
    rfl
  · next on gap armed =>
    rw [State.settlePair_modChan_get_self]
    unfold State.storedChan Channel.stored
    split
    · next state => exact absurd state (on _ _)
    · next state => exact absurd state (gap _ _)
    · next state => exact absurd state (armed _)
    · rfl

/-- The odd partner of an even channel follows what the channel then holds, and every other channel stays (R102). -/
theorem State.storeConfig_get_ne {j : ChanNum} (apart : j ≠ k) : (s.storeConfig k c).chans.get j
    = if isEven k = true ∧ j = partnerOf k then (s.chans.get j).pairWith ((s.storeConfig k c).chans.get k).holdsLong
      else s.chans.get j := by
  unfold State.storeConfig
  split
  · exact s.settlePair_modChan_get_ne k _ apart
  · exact s.settlePair_modChan_get_ne k _ apart
  · rw [State.arm_chans, Bank.get_modify_ne _ _ apart, Bank.get_modify_same]
    exact s.settlePair_modChan_get_ne k _ apart
  · exact s.settlePair_modChan_get_ne k _ apart

/-- Only arming anew requests anything: CHANNEL, where the new target passes the old one (R93). -/
theorem State.storeConfig_requested (q : PortNum) (e : Event) : (s.storeConfig k c).requested q e
    = (s.requested q e || (e == .channel && match (s.chans.get k).state with
      | .armed l => cycleAfter (c.latch s.phu.p s.phu.speed s.phu.count).ct l.ct
      | _ => false)) := by
  have settled : ∀ f, ((s.modChan k f).settlePair k).requested q e = s.requested q e := fun f =>
    State.requested_congr (State.settlePair_events _ k) q e
  unfold State.storeConfig
  split
  · next state => simp only [settled, state, Bool.and_false, Bool.or_false]
  · next state => simp only [settled, state, Bool.and_false, Bool.or_false]
  · next l state =>
    unfold State.arm
    dsimp only
    rw [State.requested_raiseIf, State.settlePair_modChan_get_self, (State.settlePair_channelWork _ k).phu, Bool.and_comm,
      state]
    exact congrArg (· || _) (settled _)
  · next armed =>
    rw [settled]
    split
    · next state => exact absurd state (armed _)
    · rw [Bool.and_false, Bool.or_false]

theorem State.storeConfig_frees : (s.storeConfig k c).frees = s.frees := by
  unfold State.storeConfig
  split
  · exact State.settlePair_frees _ k
  · exact State.settlePair_frees _ k
  · rw [State.arm_frees]
    exact State.settlePair_frees _ k
  · exact State.settlePair_frees _ k

theorem State.storeConfig_frame : s.storeConfig k c = { s with
    chans := (s.storeConfig k c).chans, events := (s.storeConfig k c).events } := by
  have work := (s.storeConfig_channelWork k c).eq
  have table : { s.ttb with slots := (s.storeConfig k c).ttb.slots } = s.ttb := by rw [State.storeConfig_ttb]
  rw [table, State.storeConfig_frees] at work
  exact work

end

/-- A stored configuration holds TIME_LONG, or the one applied in a pulse still does. -/
theorem Channel.stored_holdsLong (c : ChanConfig) (new : Latch) (ch : Channel) : (ch.stored c new).holdsLong = true ↔
    c.mode = .timeLong ∨ (ch.state.pulse.isSome ∧ ch.config.mode = .timeLong) := by
  unfold Channel.stored
  cases ch.state <;> simp [Channel.holdsLong, Channel.rearmed, ChanState.pulse, or_comm]

theorem State.pairAllows_iff (s : State) (k : ChanNum) (c : ChanConfig) : s.pairAllows k c = true ↔
    (s.chans.get k).state ≠ .claimed ∧ (c.mode = .timeLong →
      (s.chans.get (partnerOf k)).state = .disabled ∨ (s.chans.get (partnerOf k)).state = .claimed) := by
  simp [State.pairAllows, or_assoc, imp_iff_not_or]

/-- The partner that follows, by whether the even channel then holds TIME_LONG. -/
theorem Channel.pairWith_eq {holds : Prop} [Decidable holds] {long : Bool} (h : long = true ↔ holds) (ch : Channel) :
    ch.pairWith long
      = { ch with state := if holds then .claimed else if ch.state = .claimed then .disabled else ch.state } := by
  unfold Channel.pairWith
  by_cases claims : holds
  · rw [h.mpr claims, if_pos rfl, if_pos claims]
  · rw [if_neg fun long => claims (h.mp long), if_neg claims]
    split <;> rfl

/-! ## The commands (R99, R103, R104) -/

section

variable {s : State} {p : PortNum} {b : Byte} {k : ChanNum}

theorem exec_setChannel_eq (raw : RawConfig) (address : s.bti = .code p)
    (setup : (s.ports.get p).privileges.setup = true) :
    exec (.setChannel p b raw) s = .next { s.setChannel p b raw with bti := .idle } := by
  show transact p (fun s => s.privileged p Code.setChannel (s.hasSetup p) (State.setChannel p b raw)) s = _
  rw [transact_setup _ _ (bti_ne_init address) setup, State.openWrite_addressed address]

theorem exec_enableChannel_eq (address : s.bti = .code p) (setup : (s.ports.get p).privileges.setup = true) :
    exec (.enableChannel p b) s = .next { s.enableChannel p b with bti := .idle } := by
  show transact p (fun s => s.privileged p Code.enableChannel (s.hasSetup p) (State.enableChannel p b)) s = _
  rw [transact_setup _ _ (bti_ne_init address) setup, State.openWrite_addressed address]

/-- SET_CHANNEL with a channel and a configuration named. -/
theorem State.setChannel_named {raw : RawConfig} {c : ChanConfig} (chan : namedChan b = some k)
    (named : namedConfig s.ttb.l s.phu.p (!isEven k) raw = some c) :
    s.setChannel p b raw = if s.pairAllows k c then
      (s.storeConfig k c).answer p .ok Code.setChannel [if (s.chans.get k).state.pulse.isSome then 1 else 0]
    else s.answer p .busy Code.setChannel [] := by
  have held : flagBit (s.chans.get k).state.holdsBack 0 = if (s.chans.get k).state.pulse.isSome then 1 else 0 := by
    unfold ChanState.holdsBack
    cases (s.chans.get k).state.pulse <;> rfl
  simp only [State.setChannel, chan, named, held]

theorem State.setChannel_unnamed {raw : RawConfig} (chan : namedChan b = some k)
    (named : namedConfig s.ttb.l s.phu.p (!isEven k) raw = none) :
    s.setChannel p b raw = s.answer p .range Code.setChannel [] := by
  simp only [State.setChannel, chan, named]

theorem State.setChannel_above {raw : RawConfig} (chan : namedChan b = none) :
    s.setChannel p b raw = s.answer p .range Code.setChannel [] := by
  simp only [State.setChannel, chan]

end

theorem not_isEven (k : ChanNum) : (!isEven k) = (k.val % 2 == 1) := by
  unfold isEven
  rcases Nat.mod_two_eq_zero_or_one k.val with h | h <;> rw [h] <;> rfl

/-- Settles O43: RANGE by the two names, BUSY by `State.pairAllows_iff`, and else the configuration stored
(`State.storedChan`). -/
theorem setChannelActsByState : Obligations.SetChannelActsByState := by
  rintro s p q k j b raw e ch c new passed address setup rfl rfl rfl
  rw [exec_setChannel_eq raw address setup, ← not_isEven]
  refine ⟨?_, fun above => ?_, fun number => ⟨fun unnamed => ?_, fun named => ⟨fun busy => ?_, fun free partner => ?_⟩⟩⟩
  · simp only [partnerOf]
    omega
  · rw [State.setChannel_above (namedChan_none above)]
    rfl
  · rw [State.setChannel_unnamed (namedChan_some number) unnamed]
    rfl
  · rw [State.setChannel_named (namedChan_some number) named, if_neg]
    · rfl
    · rw [State.pairAllows_iff]
      rintro ⟨free, partner⟩
      rcases busy with claimed | ⟨long, used, unclaimed⟩
      · exact free claimed
      · exact (partner long).elim used unclaimed
  · rw [State.setChannel_named (namedChan_some number) named, if_pos ((s.pairAllows_iff k c).mpr ⟨free, partner⟩)]
    refine completes_next ⟨?_, (s.storeConfig_get_self k c).trans rfl, s.storeConfig_requested k c q e,
      (s.storeConfig_channelWork k c).enables q, fun apart unpaired => ?_, fun even pair => ?_⟩
    · exact congrArg (fun t => State.answered t p ⟨.ok, 0x50, [if (s.chans.get k).state.pulse.isSome then 1 else 0]⟩)
        (s.storeConfig_frame k c)
    · refine (s.storeConfig_get_ne k c apart).trans (if_neg ?_)
      rw [pair_iff]
      exact fun pair => unpaired pair.1 pair.2
    · have apart : j ≠ k := by
        rintro rfl
        omega
      refine (s.storeConfig_get_ne k c apart).trans ((if_pos ((pair_iff k j).mpr ⟨even, pair⟩)).trans ?_)
      rw [State.storeConfig_get_self]
      exact Channel.pairWith_eq (Channel.stored_holdsLong _ _ _) _

/-- Settles O45: RANGE by the number, and else by the state of the channel, a DISABLED one by `State.enable_presented` and
`State.enable_hidden`. -/
theorem enableArmsOrWaits : Obligations.EnableArmsOrWaits := by
  rintro s p k b ch address setup rfl
  rw [exec_enableChannel_eq address setup]
  refine ⟨fun above => ?_, fun number => ?_⟩
  · simp only [State.enableChannel, namedChan_none above]
    rfl
  simp only [State.enableChannel, namedChan_some number]
  refine ⟨fun claimed => ?_, fun unclaimed enabled => ?_, fun disabled synced clear => ?_, fun disabled hidden => ?_⟩
  · simp only [claimed]
    rfl
  · split
    · next state => exact absurd state unclaimed
    · next state => exact absurd state enabled
    · cases (s.chans.get k).state <;> rfl
  · have shown : s.phu.presented = true := (Phu.presented_eq_true _).mpr ⟨synced, clear⟩
    simp only [disabled]
    rw [State.enable_presented shown]
    dsimp only
    rw [Bank.get_put_same]
    rfl
  · have shown : s.phu.presented = false := by
      rw [← Bool.not_eq_true, Phu.presented_eq_true]
      rintro ⟨synced, clear⟩
      rcases hidden with unsynced | owing
      · rw [unsynced] at synced
        cases synced
      · omega
    simp only [disabled]
    rw [State.enable_hidden shown]
    dsimp only
    rw [Bank.get_put_same]
    rfl

end Sys2Proof.Machine

/-! PROOFS. What every row of the table makes of the channels' invariant: StepKeepsChannels (O59). -/

namespace Sys2Proof.Machine

/-! ## SET_CHANNEL (R99, R102) -/

/-- A channel that stores a sound configuration keeps its share. -/
theorem Channel.Sound.stored {l p : Nat} {presented : Bool} {ch : Channel} (h : ch.Sound l p presented) {c : ChanConfig}
    (config : c.Ok l p) (unclaimed : ch.state ≠ .claimed) (speed : Int) (x : Count) :
    (ch.stored c (c.latch p speed x)).Sound l p presented ∧ (ch.stored c (c.latch p speed x)).state ≠ .claimed := by
  obtain ⟨own, pending, state, due, overruns, dropped, cut⟩ := ch
  have held : ∀ c', some c = some c' → c'.Ok l p ∧ true = true := fun c' e => ⟨Option.some.inj e ▸ config, rfl⟩
  cases state with
  | disabled => exact ⟨h.idle config rfl rfl fun e => ChanState.noConfusion e, unclaimed⟩
  | waiting =>
    have unstaged : ∀ c', none = some c' → ChanConfig.Ok l p c' ∧ false = true :=
      fun c' e => absurd e (Option.some_ne_none c').symm
    exact ⟨⟨⟨config, unstaged, fun x e => absurd e (Option.some_ne_none x).symm, h.ok.overruns⟩, h.held, h.waiting, h.spell⟩,
      unclaimed⟩
  | armed l' =>
    exact ⟨h.armed (h.held rfl) speed _ config rfl rfl (overruns_le h.ok.overruns _), fun e => ChanState.noConfusion e⟩
  | on l' pulse => exact ⟨⟨⟨h.ok.config, held, h.ok.leads, h.ok.overruns⟩, h.held, h.waiting, h.spell⟩, unclaimed⟩
  | gap l' pulse => exact ⟨⟨⟨h.ok.config, held, h.ok.leads, h.ok.overruns⟩, h.held, h.waiting, h.spell⟩, unclaimed⟩
  | claimed => exact absurd rfl unclaimed

theorem State.ChannelsOk.storeConfig {s : State} (ok : s.ChannelsOk) {k : ChanNum} {c : ChanConfig}
    (config : c.Ok s.ttb.l s.phu.p) (short : isEven k = false → c.mode ≠ .timeLong) (allowed : s.pairAllows k c = true) :
    (s.storeConfig k c).ChannelsOk := by
  obtain ⟨unclaimed, partner⟩ := (s.pairAllows_iff k c).mp allowed
  obtain ⟨sound, free⟩ := (ok.sound k).stored config unclaimed s.phu.speed s.phu.count
  have self := s.storeConfig_get_self k c
  have long : ((s.storeConfig k c).chans.get k).holdsLong = true ↔
      c.mode = .timeLong ∨ ((s.chans.get k).state.pulse.isSome ∧ (s.chans.get k).config.mode = .timeLong) := by
    rw [self]
    exact Channel.stored_holdsLong _ _ _
  have before : (s.chans.get k).config.mode = .timeLong → (s.chans.get k).holdsLong = true := fun h => by
    simp [Channel.holdsLong, h]
  refine ok.changed ⟨.of_channelWork (s.storeConfig_channelWork k c), by rwa [self], fun odd => ?_, fun even holds => ?_,
    fun j apart => s.storeConfig_get_ne k c apart⟩ unclaimed (by rwa [self])
  · rw [← Bool.not_eq_true, long]
    rintro (stored | ⟨-, applied⟩)
    · exact short odd stored
    · exact Bool.noConfusion ((ok.odd k odd).symm.trans (before applied))
  · have idle : (s.chans.get (partnerOf k)).state = .disabled ∨ (s.chans.get (partnerOf k)).state = .claimed := by
      rcases long.mp holds with stored | ⟨-, applied⟩
      · exact partner stored
      · exact .inr ((ok.claimed k even).mpr (before applied))
    rcases idle with state | state <;> rw [state] <;> rfl

theorem State.ChannelsOk.setChannel {s : State} (ok : s.ChannelsOk) (pos : 1 ≤ s.phu.p) (p : PortNum) (b : Byte)
    (raw : RawConfig) : (s.setChannel p b raw).ChannelsOk := by
  cases chan : namedChan b with
  | none =>
    rw [State.setChannel_above chan]
    exact ok.same ⟨rfl, rfl, rfl, rfl⟩ rfl
  | some k =>
    cases named : namedConfig s.ttb.l s.phu.p (!isEven k) raw with
    | none =>
      rw [State.setChannel_unnamed chan named]
      exact ok.same ⟨rfl, rfl, rfl, rfl⟩ rfl
    | some c =>
      rw [State.setChannel_named chan named]
      split
      · next allowed =>
        refine (ok.storeConfig (namedConfig_ok pos named) (fun odd => ?_) allowed).same ⟨rfl, rfl, rfl, rfl⟩ rfl
        rw [odd] at named
        exact namedConfig_short named
      · exact ok.same ⟨rfl, rfl, rfl, rfl⟩ rfl

theorem State.ChannelsOk.enableChannel {s : State} (ok : s.ChannelsOk) (p : PortNum) (b : Byte) :
    (s.enableChannel p b).ChannelsOk := by
  unfold State.enableChannel
  split
  · exact ok.same ⟨rfl, rfl, rfl, rfl⟩ rfl
  · split
    · exact ok.same ⟨rfl, rfl, rfl, rfl⟩ rfl
    · next disabled => exact (ok.enable disabled).same ⟨rfl, rfl, rfl, rfl⟩ rfl
    · exact ok.same ⟨rfl, rfl, rfl, rfl⟩ rfl

theorem State.ChannelsOk.disableChannel {s : State} (ok : s.ChannelsOk) (p : PortNum) (b : Byte) :
    (s.disableChannel p b).ChannelsOk := by
  unfold State.disableChannel
  split
  · exact ok.same ⟨rfl, rfl, rfl, rfl⟩ rfl
  · exact (ok.disable _).same ⟨rfl, rfl, rfl, rfl⟩ rfl

/-! ## The other commands, which touch neither the channels nor the line -/

/-- `t` is `s` as far as the channels' invariant reads it. -/
structure State.Quiet (s t : State) : Prop where
  line : s.SameLine t
  chans : t.chans = s.chans

namespace State.Quiet

variable {s t u : State}

theorem of_rfl (l : t.ttb.l = s.ttb.l := by rfl) (p : t.phu.p = s.phu.p := by rfl)
    (phase : t.phu.phase = s.phu.phase := by rfl) (debt : t.phu.debt = s.phu.debt := by rfl)
    (chans : t.chans = s.chans := by rfl) : s.Quiet t := ⟨⟨l, p, phase, debt⟩, chans⟩

theorem trans (h : s.Quiet t) (g : t.Quiet u) : s.Quiet u := ⟨h.line.trans g.line, g.chans.trans h.chans⟩

theorem of_batchWork (h : s.BatchWork t) : s.Quiet t := ⟨.of_batchWork h, h.chans⟩

theorem of_fault (s : State) (p : PortNum) (f : FaultRecord) : s.Quiet (s.fault p f) := by
  rw [State.fault_frame]
  exact of_rfl

theorem of_openWrite (s : State) (p : PortNum) : s.Quiet (s.openWrite p) := by
  rw [State.openWrite_frame]
  exact of_rfl

end State.Quiet

/-- A transaction keeps the invariant if its body does. -/
theorem transact_channelsOk (p : PortNum) (body : State → State) {s : State} (ok : s.ChannelsOk) (pos : 1 ≤ s.phu.p)
    (h : ∀ u : State, u.ChannelsOk → 1 ≤ u.phu.p → (body u).ChannelsOk) :
    Completes (transact p body s) State.ChannelsOk := by
  by_cases init : s.bti = .init
  · rw [transact_init p body s init]
    exact completes_next ok
  · have opened := State.Quiet.of_openWrite s p
    rw [transact_next p body s init]
    refine completes_next ((h _ (ok.same opened.line opened.chans) ?_).same ⟨rfl, rfl, rfl, rfl⟩ rfl)
    rwa [opened.line.p]

theorem transact_privileged_channelsOk (p : PortNum) (code : Byte) (allowed : State → Bool) (body : State → State)
    {s : State} (ok : s.ChannelsOk) (pos : 1 ≤ s.phu.p)
    (h : ∀ u : State, u.ChannelsOk → 1 ≤ u.phu.p → (body u).ChannelsOk) :
    Completes (transact p (fun s => s.privileged p code (allowed s) body) s) State.ChannelsOk := by
  refine transact_channelsOk p _ ok pos fun u ok pos => ?_
  cases allowed u with
  | false => exact ok.same (State.Quiet.of_fault u p _).line (State.Quiet.of_fault u p _).chans
  | true => exact h u ok pos

theorem transact_quiet (p : PortNum) (body : State → State) {s : State} (ok : s.ChannelsOk) (pos : 1 ≤ s.phu.p)
    (h : ∀ u : State, u.Quiet (body u)) : Completes (transact p body s) State.ChannelsOk :=
  transact_channelsOk p body ok pos fun u ok _ => ok.same (h u).line (h u).chans

theorem transact_privileged_quiet (p : PortNum) (code : Byte) (allowed : State → Bool) (body : State → State)
    {s : State} (ok : s.ChannelsOk) (pos : 1 ≤ s.phu.p) (h : ∀ u : State, u.Quiet (body u)) :
    Completes (transact p (fun s => s.privileged p code (allowed s) body) s) State.ChannelsOk :=
  transact_privileged_channelsOk p code allowed body ok pos fun u ok _ => ok.same (h u).line (h u).chans

section

variable (p : PortNum) (s : State)

theorem State.rejectRange_quiet (a b : Nat) : s.Quiet (s.rejectRange p a b) := by
  unfold State.rejectRange
  split <;> exact .of_rfl

theorem State.readReached_quiet (code : Byte) (reach : Reach) : s.Quiet (s.readReached p code reach) := by
  cases reach with
  | frozen => exact .of_rfl
  | fault f => exact .of_fault s p f
  | serial x =>
    unfold State.readReached
    dsimp only
    split <;> exact .of_rfl

theorem State.readWindow_quiet : s.Quiet (if (s.ports.get p).window.access.allows false then
      s.answer p .ok Code.readWindow (s.windowPayload p)
    else s.fault p ⟨.access, Code.readWindow, none, none, none, (s.ports.get p).reference⟩) := by
  split
  · exact .of_rfl
  · exact .of_fault s p _

theorem State.writeReached_quiet (code : Byte) (reach : Reach) (entries : List RawEntry) :
    s.Quiet (s.writeReached p code reach entries) := by
  cases reach with
  | frozen => exact .of_rfl
  | fault f => exact .of_fault s p f
  | serial x =>
    unfold State.writeReached
    dsimp only
    split
    · exact .of_rfl
    · split
      · unfold State.writeFound
        split
        · exact .of_rfl
        · refine .of_rfl (l := ?_)
          rw [State.answer_ttb, State.modTable_ttb, Ttb.write_frame]
      · exact .of_rfl

theorem State.writeOrShort_quiet (code : Byte) (reach : Reach) (entries : List RawEntry) :
    s.Quiet (if maxEntries < entries.length then s.answer p .short code [] else s.writeReached p code reach entries) := by
  split
  · exact .of_rfl
  · exact s.writeReached_quiet p code reach entries

theorem State.setPort_quiet (target privileges base length dirAccess : Byte) (mask : Word) :
    s.Quiet (s.setPort p target privileges base length dirAccess mask) := by
  unfold State.setPort
  split <;> exact .of_rfl

theorem State.portReset_quiet (target : Byte) : s.Quiet (s.portReset p target) := by
  unfold State.portReset
  split
  · exact .of_rfl
  · split <;> exact .of_rfl

theorem State.setJob_quiet (slot : Byte) (order : BitVec 24) (size quota : Word) :
    s.Quiet (s.setJob p slot order size quota) := by
  unfold State.setJob
  split
  · exact .of_rfl
  · split
    · exact .of_rfl
    · split <;> exact .of_rfl

theorem State.setBatchSize_quiet (slot : Byte) (size : Word) : s.Quiet (s.setBatchSize p slot size) := by
  unfold State.setBatchSize
  split
  · exact .of_rfl
  · split <;> exact .of_rfl

theorem State.switchJob_quiet (slot : Byte) : s.Quiet (s.switchJob p slot) := by
  unfold State.switchJob
  split
  · exact .of_rfl
  · split <;> exact .of_rfl

theorem State.forceClose_quiet : s.Quiet (s.forceClose p) := by
  unfold State.forceClose
  dsimp only
  split
  · exact .of_rfl
  · split
    · exact (State.Quiet.of_batchWork (s.placeBatchEnd_batchWork.trans (State.closeBatch_batchWork _ _ _ _))).trans .of_rfl
    · exact .of_rfl

theorem State.pop_quiet : s.Quiet (s.pop p) := by
  unfold State.pop
  split <;> exact .of_rfl

end

/-! ## Every row, and the CLK period -/

/-- A transaction on the bus keeps the invariant. -/
theorem exec_onBus_channelsOk {s : State} (c : Instr) (bus : c.onBus = true) (ok : s.ChannelsOk) (pos : 1 ≤ s.phu.p) :
    Completes (exec c s) State.ChannelsOk := by
  cases c with
  | forwardCount jumped feed splice => exact absurd bus Bool.false_ne_true
  | backwardCount jumped => exact absurd bus Bool.false_ne_true
  | indexEdge feed splice => exact absurd bus Bool.false_ne_true
  | speedWindowEnd => exact absurd bus Bool.false_ne_true
  | powerOnReset pins => exact absurd bus Bool.false_ne_true
  | rst pins => exact absurd bus Bool.false_ne_true
  | initEnd => exact absurd bus Bool.false_ne_true
  | timerExpiry k => exact absurd bus Bool.false_ne_true
  | referenceCycleLatch address =>
    refine completes_next ?_
    split
    · exact ok
    · split <;> exact ok.same ⟨rfl, rfl, rfl, rfl⟩ rfl
  | readTransaction address clocked =>
    refine completes_next ?_
    split
    · exact ok
    · split <;> exact ok.same ⟨rfl, rfl, rfl, rfl⟩ rfl
  | unknownCmd p code =>
    show Completes (execUnknownCmd p code s) _
    exact transact_quiet p _ ok pos fun _ => .of_rfl
  | short p code =>
    show Completes (execShort p code s) _
    exact transact_quiet p _ ok pos fun _ => .of_rfl
  | readPhase p =>
    show Completes (execReadPhase p s) _
    exact transact_quiet p _ ok pos fun _ => .of_rfl
  | capture p =>
    show Completes (execCapture p s) _
    exact transact_quiet p _ ok pos fun _ => .of_rfl
  | readSnapshot p =>
    show Completes (execReadSnapshot p s) _
    exact transact_quiet p _ ok pos fun _ => by split <;> exact .of_rfl
  | purge p =>
    show Completes (execPurge p s) _
    exact transact_privileged_quiet p _ _ _ ok pos fun _ => .of_rfl
  | rejectRange p a b =>
    show Completes (execRejectRange p a b s) _
    exact transact_privileged_quiet p _ _ _ ok pos fun s => s.rejectRange_quiet p _ _
  | resync p =>
    show Completes (execResync p s) _
    exact transact_privileged_quiet p _ _ _ ok pos fun _ => .of_rfl
  | setLine p l kc counts t =>
    show Completes (execSetLine p l kc counts t s) _
    exact transact_privileged_channelsOk p _ _ _ ok pos fun _ ok _ => ok.setLine p _ _ _ _
  | readLine p =>
    show Completes (execReadLine p s) _
    exact transact_quiet p _ ok pos fun _ => .of_rfl
  | readRec p index =>
    show Completes (execReadRec p index s) _
    exact transact_quiet p _ ok pos fun s => s.readReached_quiet p _ _
  | readRecSer p serial =>
    show Completes (execReadRecSer p serial s) _
    exact transact_quiet p _ ok pos fun s => s.readReached_quiet p _ _
  | readWindow p =>
    show Completes (execReadWindow p s) _
    exact transact_quiet p _ ok pos fun s => s.readWindow_quiet p
  | writeRec p index entries =>
    show Completes (execWriteRec p index entries s) _
    exact transact_quiet p _ ok pos fun s => s.writeOrShort_quiet p _ _ entries
  | writeRecSer p serial entries =>
    show Completes (execWriteRecSer p serial entries s) _
    exact transact_quiet p _ ok pos fun s => s.writeOrShort_quiet p _ _ entries
  | setPort p target privileges base length dirAccess mask =>
    show Completes (execSetPort p target privileges base length dirAccess mask s) _
    exact transact_privileged_quiet p _ _ _ ok pos fun s => s.setPort_quiet p _ _ _ _ _ _
  | readPort p target =>
    show Completes (execReadPort p target s) _
    exact transact_quiet p _ ok pos fun _ => by split <;> exact .of_rfl
  | readFault p target =>
    show Completes (execReadFault p target s) _
    exact transact_quiet p _ ok pos fun _ => by split <;> exact .of_rfl
  | clearFault p =>
    show Completes (execClearFault p s) _
    exact transact_quiet p _ ok pos fun _ => .of_rfl
  | portReset p target =>
    show Completes (execPortReset p target s) _
    exact transact_privileged_quiet p _ _ _ ok pos fun s => s.portReset_quiet p target
  | setChannel p channel config =>
    show Completes (execSetChannel p channel config s) _
    exact transact_privileged_channelsOk p _ _ _ ok pos fun _ ok pos => ok.setChannel pos p channel config
  | enableChannel p channel =>
    show Completes (execEnableChannel p channel s) _
    exact transact_privileged_channelsOk p _ _ _ ok pos fun _ ok _ => ok.enableChannel p channel
  | disableChannel p channel =>
    show Completes (execDisableChannel p channel s) _
    exact transact_privileged_channelsOk p _ _ _ ok pos fun _ ok _ => ok.disableChannel p channel
  | readChannel p channel =>
    show Completes (execReadChannel p channel s) _
    exact transact_quiet p _ ok pos fun _ => by split <;> exact .of_rfl
  | setJob p slot order size quota =>
    show Completes (execSetJob p slot order size quota s) _
    exact transact_privileged_quiet p _ _ _ ok pos fun s => s.setJob_quiet p _ _ _ _
  | setBatchSize p slot size =>
    show Completes (execSetBatchSize p slot size s) _
    exact transact_privileged_quiet p _ _ _ ok pos fun s => s.setBatchSize_quiet p _ _
  | switchJob p slot =>
    show Completes (execSwitchJob p slot s) _
    exact transact_privileged_quiet p _ _ _ ok pos fun s => s.switchJob_quiet p _
  | readJob p slot =>
    show Completes (execReadJob p slot s) _
    exact transact_quiet p _ ok pos fun _ => by split <;> exact .of_rfl
  | readOpen p =>
    show Completes (execReadOpen p s) _
    exact transact_quiet p _ ok pos fun _ => .of_rfl
  | closeBatch p =>
    show Completes (execCloseBatch p s) _
    exact transact_privileged_quiet p _ _ _ ok pos fun s => s.forceClose_quiet p
  | readBatch p entry =>
    show Completes (execReadBatch p entry s) _
    exact transact_quiet p _ ok pos fun _ => by split <;> exact .of_rfl
  | popBatch p =>
    show Completes (execPopBatch p s) _
    exact transact_privileged_quiet p _ _ _ ok pos fun s => s.pop_quiet p
  | setEvents p events =>
    show Completes (execSetEvents p events s) _
    exact transact_quiet p _ ok pos fun _ => by split <;> exact .of_rfl
  | readEvents p =>
    show Completes (execReadEvents p s) _
    exact transact_quiet p _ ok pos fun _ => .of_rfl
  | clearEvents p events =>
    show Completes (execClearEvents p events s) _
    exact transact_quiet p _ ok pos fun _ => by split <;> exact .of_rfl

theorem exec_channelsOk {s : State} (c : Instr) (phu : s.phu.Ok) (ok : s.ChannelsOk) :
    Completes (exec c s) State.ChannelsOk := by
  by_cases bus : c.onBus = true
  · exact exec_onBus_channelsOk c bus ok phu.pos
  · cases c with
    | forwardCount jumped feed splice => exact completes_next (ok.countForward jumped feed splice)
    | backwardCount jumped => exact completes_next (ok.countBackward jumped)
    | indexEdge feed splice => exact completes_next (ok.index phu feed splice)
    | speedWindowEnd => exact completes_next (ok.same ⟨rfl, rfl, rfl, rfl⟩ rfl)
    | powerOnReset pins => exact completes_next (State.resetWith_channelsOk pins s.frees s.pending)
    | rst pins => exact completes_next (State.resetWith_channelsOk pins s.frees s.pending)
    | initEnd =>
      refine completes_next ?_
      split
      · exact ok.same ⟨rfl, rfl, rfl, rfl⟩ rfl
      · exact ok
    | timerExpiry k => exact completes_next (ok.expire k)
    | _ => exact absurd rfl bus

/-- An active output belongs to a channel with a target, which is held only while the absolute count is presented (R89,
R90). -/
theorem State.ChannelsOk.out_presented {s : State} (ok : s.ChannelsOk) {k : ChanNum} (out : s.out k = true) :
    s.phu.phase = .synced ∧ s.phu.debt = 0 := by
  refine (Phu.presented_eq_true _).mp (ok.held k ?_)
  rw [State.out, beq_iff_eq] at out
  cases state : (s.chans.get k).state with
  | on l pulse => rfl
  | _ => rw [state] at out; cases out

/-- Settles O59: every row keeps each channel's share of the invariant and the pairs', and so does a CLK period, which takes
time off the timers alone. -/
theorem stepKeepsChannels : Obligations.StepKeepsChannels := by
  intro s phu ok
  have kept := step_keeps (P := fun s => s.phu.Ok ∧ s.ChannelsOk) (Q := State.ChannelsOk)
    (fun s c h => exec_channelsOk c h.1 h.2) (fun _ _ h => ⟨h.1, h.2.same ⟨rfl, rfl, rfl, rfl⟩ rfl⟩) (fun _ h => h.2.tick) s
    ⟨phu, ok⟩
  exact kept.mono fun t ok' => ⟨ok', fun k out => ok'.out_presented out⟩

end Sys2Proof.Machine

/-! PROOFS. The expiry of a timer (R119 to R122): TimerExpiryEndsOrContinues (O41). -/

namespace Sys2Proof.Machine

theorem Timer.start_eq (d : Nat) : Timer.start d = ⟨d, 20 * d⟩ := congrArg (Timer.mk d) (Nat.mul_comm d 20)

theorem exec_timerExpiry_eq (k : ChanNum) (s : State) : exec (.timerExpiry k) s = .next (s.expire k) := rfl

/-- Settles O41: the expiry by what the channel is doing (`State.expire_idle`, `State.expire_dot`, `State.expire_gap`), and
where it ends the pulse, what `State.endPulse` does. -/
theorem timerExpiryEndsOrContinues : Obligations.TimerExpiryEndsOrContinues := by
  rintro s k j ch q e l pulse next new passed rfl rfl rfl rfl
  simp only [exec_timerExpiry_eq]
  refine ⟨?_, ?_, ?_, ?_, ?_, fun idle => ?_, fun runs => ⟨fun on more => ?_, fun gap => ?_, fun on last => ?_⟩⟩
  · rw [State.out]
    cases (s.chans.get j).state <;> rfl
  · cases (s.chans.get k).state <;> rfl
  · cases (s.chans.get k).state <;> rfl
  · cases (s.chans.get k).state <;> rfl
  · cases (s.chans.get k).state <;> rfl
  · rw [State.expire_idle idle]
  · rw [State.expire_dot on runs more.ne', Timer.start_eq]
  · rw [State.expire_gap gap runs, Timer.start_eq]
  · have partner := fun apart =>
      Channel.follows_staged (s.chans.get k).config (s.endPulse_get_ne k l s.phu.count (j := j) apart)
    have self := s.endPulse_get_self k l s.phu.count rfl
    rw [State.expire_last on runs last]
    refine completes_next ⟨s.endPulse_frame k l _, self, fun apart => (partner apart).1,
      fun even pair => (partner ?_).2 even pair, ?_, s.endPulse_requested k l _ q e rfl,
      (s.endPulse_channelWork k l _).enables q⟩
    · rintro rfl
      omega
    · rw [State.out, self]
      rfl

end Sys2Proof.Machine

/-! PROOFS. The readers of the channels, the jobs and the batches (R106, R142, R147, R151, R155): BlockReaders (O47). -/

namespace Sys2Proof.Machine

/-! ## Flags and sizes of values (R178, R179) -/

/-- Six flags of a byte, as the sum of their places' values; a layout with fewer has `false` for the rest. -/
theorem flagBits_eq : ∀ a b c d e f : Bool,
    flagBit a 0 ||| flagBit b 1 ||| flagBit c 2 ||| flagBit d 3 ||| flagBit e 4 ||| flagBit f 5
      = BitVec.ofNat 8 ((if a then 1 else 0) + (if b then 2 else 0) + (if c then 4 else 0) + (if d then 8 else 0)
        + (if e then 16 else 0) + (if f then 32 else 0)) := by
  decide

section

variable (a b c d e : Bool)

theorem flagBits_five_eq : flagBit a 0 ||| flagBit b 1 ||| flagBit c 2 ||| flagBit d 3 ||| flagBit e 4
    = BitVec.ofNat 8 ((if a then 1 else 0) + (if b then 2 else 0) + (if c then 4 else 0) + (if d then 8 else 0)
      + (if e then 16 else 0)) :=
  BitVec.or_zero.symm.trans (flagBits_eq a b c d e false)

theorem flagBits_four_eq : flagBit a 0 ||| flagBit b 1 ||| flagBit c 2 ||| flagBit d 3
    = BitVec.ofNat 8 ((if a then 1 else 0) + (if b then 2 else 0) + (if c then 4 else 0) + (if d then 8 else 0)) :=
  BitVec.or_zero.symm.trans (flagBits_five_eq a b c d false)

theorem flagBit_zero_eq : flagBit a 0 = BitVec.ofNat 8 (if a then 1 else 0) := by cases a <;> rfl

end

/-- An order number goes out in four bytes, of which the first is 0 (R181). -/
theorem bytes24_padded (w : BitVec 24) : 0 :: bytes24 w = natBytes32 w.toNat := by
  have high : w.toNat / 2 ^ 24 = 0 := Nat.div_eq_of_lt w.isLt
  have low : bytes24 w = bytes24 (BitVec.ofNat 24 w.toNat) := by rw [BitVec.ofNat_toNat, BitVec.setWidth_eq]
  rw [low, bytes24, natBytes32, bytes32]
  repeat rw [extractByte_ofNat (by decide)]
  rw [high]
  rfl

/-- The gate-field byte: the field of a gate that has one, and else the one chosen (R179, log 7). -/
theorem Gate.field_code (g : Gate) (unread : ResultField) : (g.field.getD unread).code = match g with
    | .presentAfter f => f.code
    | _ => unread.code := by
  cases g <;> rfl

/-! ## What a channel shows (R106, R124) -/

section

variable (c : ChanState)

theorem ChanState.phase_code : c.phase.code = match c with
    | .disabled => 0
    | .waiting => 1
    | .armed _ => 2
    | .on _ _ => 3
    | .gap _ _ => 4
    | .claimed => 5 := by
  cases c <;> rfl

theorem ChanState.target_eq : c.target = (c.latch.map Latch.ct).getD 0 := by
  unfold ChanState.target
  cases c.latch <;> rfl

theorem ChanState.latchBytes_eq : c.latchBytes
    = natBytes16 ((c.latch.map Latch.onLead).getD 0) ++ natBytes16 ((c.latch.map Latch.offLead).getD 0)
      ++ natBytes32 ((c.latch.map Latch.aOn).getD 0) ++ natBytes32 ((c.latch.bind Latch.aOff).getD 0) := by
  unfold ChanState.latchBytes
  cases c.latch <;> rfl

theorem ChanState.gatingBytes_eq :
    c.gatingBytes = bytes16 ((c.pulse.map fun pulse : Pulse => pulse.gating.serial).getD 0) := by
  unfold ChanState.gatingBytes
  cases c.pulse <;> rfl

theorem ChanState.elapsed_eq :
    c.elapsed = (c.timer.map fun x : Timer => x.duration - (x.left + 19) / 20).getD 0 := by
  unfold ChanState.elapsed
  cases c.timer <;> rfl

end

/-! ## The job slots (R147) -/

theorem namedJob_none {b : Byte} (h : 7 < b.toNat) : namedJob b = none := dif_neg (by omega)

theorem namedJob_some {b : Byte} {j : JobNum} (h : b.toNat = j.val) : namedJob b = some j := by
  have small : b.toNat < 8 := by omega
  rw [namedJob, dif_pos small]
  exact congrArg some (Fin.ext h)

theorem Ttb.countRecords_ne_zero (t : Ttb) (f : Record → Bool) :
    t.countRecords f ≠ 0 ↔ ∃ i, ∃ r ∈ t.slots.get i, f r = true := by
  rw [Ttb.countRecords_eq, ← Nat.pos_iff_ne_zero, List.countP_pos_iff]
  simp [Option.any_eq_true]

theorem State.jobInUse_iff (s : State) (j : JobNum) : s.jobInUse j = true ↔ s.bfu.cutJob = j ∨ s.bfu.openBatch.job = j ∨
    ∃ i, ∃ r ∈ s.ttb.slots.get i, r.place = .inLine ∧ r.kind ≠ .void ∧ r.cls = .uncounted ∧ r.job = j := by
  simp only [State.jobInUse, Bool.or_eq_true, beq_iff_eq, bne_iff_ne, or_assoc, Ttb.countRecords_ne_zero,
    Bool.and_eq_true, Record.uncountedBlank_iff, and_assoc]

/-! ## READ_CHANNEL (R106) -/

theorem State.answered_response (s : State) (p : PortNum) (r : Response) : ((s.answered p r).ports.get p).response = r :=
  congrArg Port.response (Bank.get_modify_same s.ports p fun q => { q with response := r })

theorem exec_readChannel_named {s : State} {p : PortNum} {b : Byte} {k : ChanNum} (address : s.bti = .code p)
    (number : b.toNat = k.val) : exec (.readChannel p b) s = .next ({ s with frees := s.frees + 1 }.answered p
      ⟨.ok, 0x53, (s.chans.get k).bytes k (unreadField s.frees false) (unreadField s.frees true)⟩) := by
  show execReadChannel p b s = _
  rw [execReadChannel, transact_addressed _ address, namedChan_some number]
  rfl

/-- Settles O47: each reader answers on the state as it stands, and the layouts by the bytes of their values. -/
theorem blockReaders : Obligations.BlockReaders := by
  rintro s p b k j ch f g slot cut inUse o e two four flag fieldCode config address htwo hfour rfl hfield hconfig
  have pair : ∀ n, two n = natBytes16 n := fun n => by rw [htwo, natBytes16_eq]
  have quad : ∀ n, four n = natBytes32 n := fun n => by rw [natBytes32_eq, ← pair, ← pair, hfour]
  have code : fieldCode = ResultField.code := hfield.trans (funext fun h => by cases h <;> rfl)
  have layout : ∀ c unread, config c unread = c.bytes unread := fun c unread => by
    rw [hconfig, code, ChanConfig.bytes, Gate.field_code]
    simp only [pair, quad]
    rfl
  refine ⟨fun above => ?_, fun number => ?_, fun above => ?_, fun number => ?_, s.jobInUse_iff j, ?_, fun beyond => ?_,
    fun entry found => ?_, ?_, ?_, ?_, ?_⟩
  · show execReadChannel p b s = _
    rw [execReadChannel, transact_addressed _ address, namedChan_none above]
    rfl
  · rw [exec_readChannel_named address number]
    have response := { s with frees := s.frees + 1 }.answered_response p
      ⟨.ok, 0x53, (s.chans.get k).bytes k (unreadField s.frees false) (unreadField s.frees true)⟩
    refine completes_next ⟨congrArg _ response.symm, _, _, response, ?_⟩
    rw [response]
    exact Channel.bytes_length _ _ _ _
  · show execReadJob p b s = _
    rw [execReadJob, transact_addressed _ address, namedJob_none above]
    rfl
  · show execReadJob p b s = _
    rw [execReadJob, transact_addressed _ address, namedJob_some number]
    rfl
  · show execReadOpen p s = _
    rw [execReadOpen, transact_addressed _ address]
    rfl
  · show execReadBatch p b s = _
    rw [execReadBatch, transact_addressed _ address, List.getElem?_eq_none beyond]
    rfl
  · show execReadBatch p b s = _
    rw [execReadBatch, transact_addressed _ address, Option.mem_def.mp found]
    rfl
  · simp only [pair, quad, layout, Channel.bytes, ChanState.phase_code, flagBit_zero_eq, ChanState.target_eq,
      ChanState.latchBytes_eq, ChanState.gatingBytes_eq, ChanState.elapsed_eq, bytes16_toNat, List.append_assoc]
    rfl
  · simp only [pair, quad, JobSlot.bytes, flagBits_four_eq, ← bytes24_padded]
    rfl
  · simp only [pair, OpenBatch.bytes, flagBits_eq, serialBytes, inStackBytes, bytes16_toNat]
    rfl
  · simp only [pair, quad, BatchRecord.bytes, flagBits_five_eq, ← bytes24_padded, serialBytes, inStackBytes, bytes16_toNat]
    rfl

end Sys2Proof.Machine

/-! PROOFS. The leads and the off points of a latch (R109 to R112): LeadCoversTheLatency (O37) and OffPointFollowsOnPoint
(O39). -/

namespace Sys2Proof.Machine

/-! ## The lead (R109) -/

theorem leadOf_stopped {speed : Int} (latency limit : Nat) (still : speed ≤ 0) : leadOf speed latency limit = 0 := by
  rw [leadOf, Int.toNat_of_nonpos still, Nat.zero_mul]
  exact Nat.zero_min _

/-- On a forward line a count is covered by the lead exactly when the limit allows it and half a count less than it is
covered in the latency, so that the lead is rounded to the nearest with a half rounded up. -/
theorem le_leadOf_iff {speed : Int} {n latency limit : Nat} (forward : 0 < speed) :
    n ≤ leadOf speed latency limit ↔ 4000 * (n : Int) ≤ speed * latency + 2000 ∧ n ≤ limit := by
  obtain ⟨v, rfl⟩ := Int.eq_ofNat_of_zero_le forward.le
  rw [leadOf, Int.toNat_natCast, le_min_iff, Nat.le_div_iff_mul_le (by decide), mul_comm n]
  norm_cast

/-- Settles O37: both leads are `leadOf` of their latency, which `le_leadOf_iff` places between two counts. -/
theorem leadCoversTheLatency : Obligations.LeadCoversTheLatency := by
  intro c p speed x lat lead which
  have value : lead = leadOf speed lat c.leadLimit := by
    obtain ⟨rfl, rfl⟩ | ⟨rfl, rfl⟩ := which <;> rfl
  have covered (forward : 0 < speed) : 4000 * (lead : Int) ≤ speed * lat + 2000 :=
    ((le_leadOf_iff forward).mp value.le).1
  refine ⟨value.trans_le (leadOf_le _ _ _), fun still => value.trans (leadOf_stopped _ _ still),
    fun forward below => ⟨covered forward, ?_⟩, fun forward _ => covered forward⟩
  by_contra more
  have next : lead + 1 ≤ leadOf speed lat c.leadLimit :=
    (le_leadOf_iff forward).mpr ⟨by push_cast; exact not_lt.mp more, below⟩
  omega

/-! ## The off point (R112) -/

section

variable {c : ChanConfig} {p : Nat}

theorem ChanConfig.latchFor_aOff_none (other : c.mode ≠ .angle) (speed : Int) (y : Word) :
    (c.latchFor p speed y).aOff = none := if_neg other

/-- Raising a point that is not after another to one count after it is taking the later of the two. -/
theorem ite_le_eq_max (off on : Int) : (if off ≤ on then on + 1 else off) = max off (on + 1) := by
  split <;> omega

/-- The off point of an ANGLE pulse, for the target cycle `y` in its range. -/
theorem ChanConfig.latchFor_aOff_angle (angle : c.mode = .angle) (speed : Int) (y : Word) :
    (c.latchFor p speed y).aOff = some ((max
      ((y.toNat : Int) * p + c.offAngle - (c.latchFor p speed y).offLead
        + (if c.offAngle ≤ c.onAngle then (p : Int) else 0))
      ((y.toNat : Int) * p + c.onAngle - (c.latchFor p speed y).onLead + 1)) % (65536 * (p : Int))).toNat := by
  rw [← ite_le_eq_max]
  simp only [latchFor, if_pos angle, countModulus, Nat.cast_mul, Nat.cast_ofNat]

end

/-- The later of two points of a cycle that has wrapped is the same modulo the range (R12). -/
theorem wrapped_cycle_max_emod (x : Word) (n p : Nat) (a b : Int) :
    max (((x + BitVec.ofNat 16 n).toNat : Int) * p + a) (((x + BitVec.ofNat 16 n).toNat : Int) * p + b) % (65536 * p)
      = max (((x.toNat : Int) + n) * p + a) (((x.toNat : Int) + n) * p + b) % (65536 * p) := by
  rw [max_add_add_left, max_add_add_left, wrapped_cycle_emod]

/-- Settles O39: a latch is that of its target cycle, whose off point `ChanConfig.latchFor_aOff_angle` gives, and the cycle
number of the target may wrap. -/
theorem offPointFollowsOnPoint : Obligations.OffPointFollowsOnPoint := by
  rintro c p speed x n l on off y - - - rfl target rfl rfl
  have own : c.latch p speed x = c.latchFor p speed (x.cycle + BitVec.ofNat 16 n) := target ▸ rfl
  refine ⟨fun other => ⟨?_, ChanConfig.latchFor_aOff_none other speed y⟩,
    fun angle => ⟨?_, ChanConfig.latchFor_aOff_angle angle speed y⟩⟩
  · rw [own, ChanConfig.latchFor_aOff_none other]
  · rw [own, ChanConfig.latchFor_aOff_angle angle]
    simp only [add_sub_assoc, add_assoc]
    rw [wrapped_cycle_max_emod]

end Sys2Proof.Machine

/-! PROOFS. The job test and the close of a batch, whole: JobTestClosesOrMixes (O50) and CloseBatchForces (O51). -/

namespace Sys2Proof.Machine

/-! ## Counts and room in plain numbers (section 7.1, R153) -/

theorem Bfu.hasRoom_iff (b : Bfu) : b.hasRoom = true ↔ b.queue.length < 16 := decide_eq_true_iff

theorem OpenBatch.countedNothing_iff (o : OpenBatch) :
    o.countedNothing = true ↔ o.good + o.diverted + o.passed + o.sample = 0 := by
  simp only [OpenBatch.countedNothing, Bool.and_eq_true, beq_iff_eq]
  omega

/-! ## The close and the close held back (R136 to R138, R152, R154) -/

/-- Is an event requested once a batch of the slot `j` has closed: held before, BATCH, QHIGH from 11 to 12 entries, JOB where
the slot's count meets its quota? -/
def requestedByClose (held : Bool) (entries : Nat) (j : JobSlot) (e : Event) : Bool :=
  held || e == .batch || (e == .qhigh && entries == 11) ||
    (e == .job && j.quota != 0 && j.closed + 1 == j.quota && decide (j.closed < 65535))

theorem State.closeBatch_requested (s : State) (short forced : Bool) (next : JobNum) (q : PortNum) (e : Event) :
    (s.closeBatch short forced next).requested q e
      = requestedByClose (s.requested q e) s.bfu.queue.length (s.bfu.jobs.get s.bfu.openBatch.job) e := by
  have high : (s.bfu.queue.length + 1 == queueHighWater) = (s.bfu.queue.length == 11) := by
    rw [Bool.eq_iff_iff, beq_iff_eq, beq_iff_eq]
    exact Nat.add_right_cancel_iff
  have start := (s.modBfu (Bfu.close short forced s.phu.cycle next)).requested_raise .batch e q
  rw [State.requested_congr (t := s.modBfu _) rfl] at start
  rw [State.closeBatch, State.requested_raiseIf, State.requested_raiseIf, start, high, JobSlot.meetsQuota,
    requestedByClose]
  ac_rfl

/-- A close that opens the next batch for the same job. -/
theorem Bfu.close_same (b : Bfu) (short forced : Bool) (cycle : Word) {o : OpenBatch} {j : JobSlot}
    (current : o = b.openBatch) (own : j = b.jobs.get o.job) : b.close short forced cycle o.job = { b with
      queue := b.queue ++ [o.close j.order short forced cycle]
      openBatch := OpenBatch.fresh (o.number + 1) o.job j.openingSize
      jobs := b.jobs.put o.job { j with next := none, closed := min (j.closed + 1) 65535 } } := by
  subst own current
  simp only [Bfu.close, Bank.modify, Bank.get_put_same, Bank.put_put]
  rfl

/-- A close that opens the next batch for another job. -/
theorem Bfu.close_other (b : Bfu) (short forced : Bool) (cycle : Word) {o : OpenBatch} {j : JobSlot} {n : JobNum}
    (current : o = b.openBatch) (own : j = b.jobs.get o.job) (other : o.job ≠ n) : b.close short forced cycle n = { b with
      queue := b.queue ++ [o.close j.order short forced cycle]
      openBatch := OpenBatch.fresh (o.number + 1) n (b.jobs.get n).openingSize
      jobs := (b.jobs.put o.job { j with closed := min (j.closed + 1) 65535 }).put n
        { b.jobs.get n with next := none } } := by
  subst own current
  simp only [Bfu.close, Bank.modify, Bank.get_put_ne _ _ other.symm]
  rfl

theorem State.raiseQfull_requested (s : State) (q : PortNum) (e : Event) :
    s.raiseQfull.requested q e = (s.requested q e || (e == .qfull && !s.bfu.qfull)) := by
  unfold State.raiseQfull
  cases s.bfu.qfull with
  | true => simp
  | false =>
    rw [if_neg Bool.false_ne_true, State.requested_raise, Bool.not_false, Bool.and_true]
    rfl

/-- The open batch held MIXED by a full queue (R131). -/
def State.mixed (s : State) : State := (s.modOpen fun o => { o with mixed := true }).raiseQfull

section

variable (s : State)

theorem State.mixed_bfu : s.mixed.bfu = { s.bfu with openBatch := { s.bfu.openBatch with mixed := true }, qfull := true } :=
  State.raiseQfull_bfu _

theorem State.mixed_ttb : s.mixed.ttb = s.ttb := State.raiseQfull_ttb _

theorem State.mixed_requested (q : PortNum) (e : Event) :
    s.mixed.requested q e = (s.requested q e || (e == .qfull && !s.bfu.qfull)) := State.raiseQfull_requested _ q e

theorem State.mixed_batchWork : s.BatchWork s.mixed := (State.batchWork_modOpen s _).trans (State.raiseQfull_batchWork _)

theorem State.mixed_frame : s.mixed = { s with
    bfu := { s.bfu with openBatch := { s.bfu.openBatch with mixed := true }, qfull := true }
    events := s.mixed.events } := by
  have frame := s.mixed_batchWork.eq
  rwa [State.mixed_bfu, State.mixed_ttb] at frame

end

/-! ## Batch end on the last in-stack record (R139) -/

section

variable {s : State} {h : Held}

theorem Record.markEnd_serial (r : Record) : r.markEnd.serial = r.serial := rfl

theorem State.placeBatchEnd_ttb_none (last : s.bfu.openBatch.lastInStack = none) : s.placeBatchEnd.ttb = s.ttb := by
  rw [State.placeBatchEnd_ttb, last]

/-- Batch end is not placed where the record it was meant for is gone. -/
theorem State.placeBatchEnd_ttb_gone (last : h ∈ s.bfu.openBatch.lastInStack)
    (gone : ∀ r ∈ s.ttb.lookup h.serial, h.birth ≠ some r.birth) : s.placeBatchEnd.ttb = s.ttb := by
  rw [State.placeBatchEnd_ttb, Option.mem_def.mp last]
  refine (Ttb.writeHeld_eq _ _ _).trans (if_neg fun found => ?_)
  obtain ⟨r, stands, same⟩ := (Option.any_eq_true _ _).mp found
  exact gone r stands (beq_iff_eq.mp same)

theorem State.placeBatchEnd_ttb_found (last : h ∈ s.bfu.openBatch.lastInStack) {r : Record}
    (found : r ∈ s.ttb.lookup h.serial) (same : h.birth = some r.birth) :
    s.placeBatchEnd.ttb = s.ttb.write h.serial Record.markEnd := by
  rw [State.placeBatchEnd_ttb, Option.mem_def.mp last]
  refine (Ttb.writeHeld_eq _ _ _).trans (if_pos ?_)
  exact (Option.any_eq_true _ _).mpr ⟨r, found, beq_iff_eq.mpr same⟩

theorem State.placeBatchEnd_lookup (last : h ∈ s.bfu.openBatch.lastInStack) {r : Record}
    (found : r ∈ s.ttb.lookup h.serial) (same : h.birth = some r.birth) :
    s.placeBatchEnd.ttb.lookup h.serial = some { r with batchEnd := true } := by
  rw [State.placeBatchEnd_ttb_found last found same, Ttb.lookup_write _ _ _ _ Record.markEnd_serial, if_pos rfl,
    Option.mem_def.mp found]
  rfl

/-- Batch end is placed on no other record. -/
theorem State.placeBatchEnd_lookup_ne {y : Word} (apart : ∀ h ∈ s.bfu.openBatch.lastInStack, y ≠ h.serial) :
    s.placeBatchEnd.ttb.lookup y = s.ttb.lookup y := by
  cases last : s.bfu.openBatch.lastInStack with
  | none => rw [State.placeBatchEnd_ttb_none last]
  | some h =>
    by_cases stands : ∃ r ∈ s.ttb.lookup h.serial, h.birth = some r.birth
    · obtain ⟨r, found, same⟩ := stands
      rw [State.placeBatchEnd_ttb_found last found same, Ttb.lookup_write _ _ _ _ Record.markEnd_serial,
        if_neg (apart h last)]
    · rw [State.placeBatchEnd_ttb_gone last fun r found same => stands ⟨r, found, same⟩]

end

/-- A close with batch end placed on the last in-stack record. -/
def State.endBatch (short forced : Bool) (next : JobNum) (s : State) : State := s.placeBatchEnd.closeBatch short forced next

section

variable (s : State) (short forced : Bool) (next : JobNum)

theorem State.endBatch_batchWork : s.BatchWork (s.endBatch short forced next) :=
  s.placeBatchEnd_batchWork.trans (State.closeBatch_batchWork _ _ _ _)

theorem State.endBatch_bfu : (s.endBatch short forced next).bfu = s.bfu.close short forced s.phu.cycle next := by
  rw [State.endBatch, State.closeBatch_bfu, State.placeBatchEnd_bfu, s.placeBatchEnd_batchWork.phu]

theorem State.endBatch_ttb : (s.endBatch short forced next).ttb = s.placeBatchEnd.ttb := State.closeBatch_ttb _ _ _ _

theorem State.endBatch_frame {b : Bfu} (closed : s.bfu.close short forced s.phu.cycle next = b) :
    s.endBatch short forced next = { s with
      ttb := { s.ttb with slots := (s.endBatch short forced next).ttb.slots }
      bfu := b, events := (s.endBatch short forced next).events } := by
  rw [← closed, ← State.endBatch_bfu]
  exact (s.endBatch_batchWork short forced next).eq

theorem State.endBatch_requested (q : PortNum) (e : Event) : (s.endBatch short forced next).requested q e
    = requestedByClose (s.requested q e) s.bfu.queue.length (s.bfu.jobs.get s.bfu.openBatch.job) e := by
  rw [State.endBatch, State.closeBatch_requested, State.placeBatchEnd_bfu,
    State.requested_congr s.placeBatchEnd_events]

end

/-! ## The job test (R129 to R131) -/

section

variable {s : State} {n : JobNum}

theorem State.jobTest_same (same : s.bfu.openBatch.job = n) : s.jobTest n = s := if_pos same

variable (other : s.bfu.openBatch.job ≠ n)

include other

theorem State.jobTest_retags (nothing : s.bfu.openBatch.countedNothing = true) :
    s.jobTest n = s.modBfu (Bfu.retag n) := by
  simp only [State.jobTest, if_neg other, if_pos nothing]

theorem State.jobTest_closes (counted : ¬ s.bfu.openBatch.countedNothing = true) (room : s.bfu.hasRoom = true) :
    s.jobTest n = s.endBatch (decide (s.bfu.openBatch.inStack < s.bfu.openBatch.ne)) false n := by
  simp only [State.jobTest, if_neg other, if_neg counted, if_pos room]
  rfl

theorem State.jobTest_mixes (counted : ¬ s.bfu.openBatch.countedNothing = true) (full : ¬ s.bfu.hasRoom = true) :
    s.jobTest n = s.mixed := by
  simp only [State.jobTest, if_neg other, if_neg counted, if_neg full]
  rfl

end

/-- Settles O50: the four cases of the job test, of which the third is a close with batch end placed. -/
theorem jobTestClosesOrMixes : Obligations.JobTestClosesOrMixes := by
  rintro s n o j q e y rfl rfl
  have nothing := s.bfu.openBatch.countedNothing_iff
  have room := s.bfu.hasRoom_iff
  refine ⟨State.jobTest_same, fun other empty => ?_, fun other counted free => ?_, fun other counted full => ?_⟩
  · rw [State.jobTest_retags other (nothing.mpr empty)]
    rfl
  · rw [State.jobTest_closes other (fun h => counted.ne' (nothing.mp h)) (room.mpr free)]
    refine ⟨State.endBatch_frame _ _ _ _ (Bfu.close_other _ _ _ _ rfl rfl other), State.endBatch_requested _ _ _ _ q e,
      (s.endBatch_batchWork _ _ _).enables q, ?_⟩
    rw [State.endBatch_ttb]
    exact ⟨State.placeBatchEnd_lookup_ne, fun _ last _ found => State.placeBatchEnd_lookup last found,
      fun _ last => State.placeBatchEnd_ttb_gone last, State.placeBatchEnd_ttb_none⟩
  · rw [State.jobTest_mixes other (fun h => counted.ne' (nothing.mp h)) (fun h => (room.mp h).not_ge full)]
    exact ⟨s.mixed_frame, s.mixed_requested q e, s.mixed_batchWork.enables q⟩

/-! ## CLOSE_BATCH (R140) -/

/-- CLOSE_BATCH of a port with SETUP or BATCH, outside INIT. -/
theorem exec_closeBatch_eq {s : State} {p : PortNum} (init : s.bti ≠ .init)
    (allowed : (s.ports.get p).privileges.setup = true ∨ (s.ports.get p).privileges.batch = true) :
    exec (.closeBatch p) s = .next { (s.openWrite p).forceClose p with bti := .idle } := by
  have holds : ((s.openWrite p).hasSetup p || (s.openWrite p).hasBatch p) = true := by
    rwa [State.hasSetup_openWrite, State.hasBatch_openWrite, Bool.or_eq_true]
  show execCloseBatch p s = _
  rw [execCloseBatch, transact_next _ _ _ init, holds, State.privileged_allowed]

section

variable {s : State} (p : PortNum)

theorem State.forceClose_empty (empty : s.bfu.openBatch.inStack = 0) :
    s.forceClose p = s.answer p .empty 0x65 [] := if_pos empty

theorem State.forceClose_busy (counted : s.bfu.openBatch.inStack ≠ 0) (full : ¬ s.bfu.hasRoom = true) :
    s.forceClose p = s.answer p .busy 0x65 [] := by
  simp only [State.forceClose, if_neg counted, if_neg full]
  rfl

theorem State.forceClose_closes (counted : s.bfu.openBatch.inStack ≠ 0) (room : s.bfu.hasRoom = true) :
    s.forceClose p = (s.endBatch false true s.bfu.openBatch.job).answer p .ok 0x65 (bytes16 s.bfu.openBatch.number) := by
  simp only [State.forceClose, if_neg counted, if_pos room]
  rfl

end

/-- Settles O51: the command is spoken of on the state with its transaction open, which differs in the ports alone. -/
theorem closeBatchForces : Obligations.CloseBatchForces := by
  rintro s p q o j e y init allowed rfl rfl
  rw [exec_closeBatch_eq init allowed, ← s.openWrite_bfu p, ← s.openWrite_ttb p, ← s.openWrite_phu p,
    ← s.openWrite_events p, ← State.requested_congr (s.openWrite_events p)]
  generalize s.openWrite p = u
  have room := u.bfu.hasRoom_iff
  refine ⟨fun empty => ?_, fun counted full => ?_, fun counted free => ?_⟩
  · rw [State.forceClose_empty p empty]
    rfl
  · rw [State.forceClose_busy p counted.ne' fun h => (room.mp h).not_ge full]
    rfl
  · rw [State.forceClose_closes p counted.ne' (room.mpr free)]
    have frame := u.endBatch_frame false true _ (Bfu.close_same _ _ _ _ rfl rfl)
    refine completes_next ⟨congrArg (fun v => (State.answer p .ok 0x65 _ v).withBus .idle) frame,
      State.endBatch_requested u false true _ q e, (u.endBatch_batchWork _ _ _).enables q, ?_⟩
    rw [show ({ State.answer p .ok 0x65 _ (u.endBatch false true u.bfu.openBatch.job) with bti := .idle } : State).ttb
      = u.placeBatchEnd.ttb from u.endBatch_ttb _ _ _]
    exact ⟨State.placeBatchEnd_lookup_ne, fun _ last _ found => State.placeBatchEnd_lookup last found,
      fun _ last => State.placeBatchEnd_ttb_gone last⟩

end Sys2Proof.Machine

/-! PROOFS. Classification at Kc (R127 to R136): what counting a record makes of the table, the Batch Forming Unit and the
events, for ClassificationCounts (O48) and BatchClosesAtItsSize (O49). -/

namespace Sys2Proof.Machine

/-! ## The size test (R134, R135) -/

/-- Does the size test of a batch that has counted a record into the stack close it, or hold its close back? -/
def OpenBatch.reached (o : OpenBatch) : Bool := o.closePending || decide (o.ne ≤ o.inStack)

/-- The marks that a size test leaves on a batch whose close is held back: OVERSIZE and close pending. -/
def OpenBatch.sized (o : OpenBatch) : OpenBatch :=
  { o with oversize := o.oversize || decide (o.ne < o.inStack), closePending := o.reached }

theorem OpenBatch.reached_iff (o : OpenBatch) : o.reached = true ↔ o.ne ≤ o.inStack ∨ o.closePending = true := by
  rw [OpenBatch.reached, Bool.or_eq_true, decide_eq_true_iff, or_comm]

/-- A batch below its size with no close pending is left without either mark. -/
theorem OpenBatch.sized_of_below {o : OpenBatch} (below : o.reached = false) : o.sized = o := by
  have small : ¬ o.ne < o.inStack := fun h => Bool.false_ne_true
    (below.symm.trans (o.reached_iff.mpr (.inl h.le)))
  have unpending : o.closePending = false := (Bool.or_eq_false_iff.mp below).1
  rw [OpenBatch.sized, below, decide_eq_false small, Bool.or_false, ← unpending]

section

variable {s : State} (x : Word)

theorem State.sizeTest_below (below : s.bfu.openBatch.reached = false) : s.sizeTest x = s := by
  obtain ⟨unpending, small⟩ := Bool.or_eq_false_iff.mp below
  have inside := not_le.mp (of_decide_eq_false small)
  simp only [State.sizeTest, decide_eq_true inside, unpending, Bool.not_false, Bool.and_self, if_true]

theorem State.sizeTest_fires (reached : s.bfu.openBatch.reached = true) :
    ¬ (decide (s.bfu.openBatch.inStack < s.bfu.openBatch.ne) && !s.bfu.openBatch.closePending) = true := by
  rw [Bool.and_eq_true, decide_eq_true_iff, Bool.not_eq_true']
  rintro ⟨small, unpending⟩
  rcases s.bfu.openBatch.reached_iff.mp reached with size | pending
  · exact small.not_ge size
  · exact Bool.false_ne_true (unpending.symm.trans pending)

theorem State.sizeTest_closes (reached : s.bfu.openBatch.reached = true) (room : s.bfu.hasRoom = true) :
    s.sizeTest x = ((s.modTable (Ttb.write x Record.markEnd)).modOpen OpenBatch.sized).closeBatch false false
      s.bfu.openBatch.job := by
  simp only [State.sizeTest, if_neg (s.sizeTest_fires reached), if_pos room]
  rfl

theorem State.sizeTest_holds (reached : s.bfu.openBatch.reached = true) (full : ¬ s.bfu.hasRoom = true) :
    s.sizeTest x = (s.modOpen OpenBatch.sized).raiseQfull := by
  have pending : s.modOpen OpenBatch.sized = s.modOpen fun o =>
      { o with oversize := s.bfu.openBatch.sized.oversize, closePending := true } := by
    rw [← reached]
    rfl
  simp only [State.sizeTest, if_neg (s.sizeTest_fires reached), if_neg full, pending]
  rfl

end

/-! ## Counting a record (R132, R133) -/

/-- The class a record that is not VOID is given (Table 7-2). -/
def Record.countedAs (r : Record) : BlankClass := classOf r.route r.reject.isSome

/-- The open batch once it has counted the record `r`, before the size test. -/
def OpenBatch.counting (r : Record) (o : OpenBatch) : OpenBatch := o.countIn r.countedAs ⟨r.serial, some r.birth⟩

/-- A record of a class in the batch with the number given. -/
def Record.inBatch (c : BlankClass) (number : Word) (r : Record) : Record := { r with cls := c, batch := some number }

theorem Record.inBatch_serial (c : BlankClass) (number : Word) (r : Record) : (r.inBatch c number).serial = r.serial := rfl

/-- Counting up to the size test: the class and the batch number written, the open batch counted up. -/
def State.tally (r : Record) (s : State) : State :=
  (s.modTable (Ttb.write r.serial (Record.inBatch r.countedAs s.bfu.openBatch.number))).modOpen (OpenBatch.counting r)

/-- Does counting the record `r` end the open batch, with batch end on it (R134)? -/
def State.endsOn (r : Record) (s : State) : Bool :=
  r.countedAs.inStack && s.bfu.hasRoom && (s.bfu.openBatch.counting r).reached

theorem State.endsOn_full {s : State} (full : ¬ s.bfu.hasRoom = true) (r : Record) : s.endsOn r = false := by
  rw [State.endsOn, Bool.eq_false_of_not_eq_true full, Bool.and_false, Bool.false_and]

section

variable (s : State) (r : Record)

theorem State.countRecord_eq :
    s.countRecord r = if r.countedAs.inStack then (s.tally r).sizeTest r.serial else s.tally r := rfl

theorem State.tally_bfu : (s.tally r).bfu = { s.bfu with openBatch := s.bfu.openBatch.counting r } := rfl

theorem State.tally_events : (s.tally r).events = s.events := rfl

variable {s r}

/-- A record out of the stack is counted and nothing more. -/
theorem State.countRecord_apart (out : r.countedAs.inStack = false) : s.countRecord r = s.tally r := by
  rw [State.countRecord_eq, if_neg (out ▸ Bool.false_ne_true)]

theorem State.countRecord_below (inside : r.countedAs.inStack = true)
    (below : (s.bfu.openBatch.counting r).reached = false) : s.countRecord r = s.tally r := by
  rw [State.countRecord_eq, if_pos inside]
  exact State.sizeTest_below r.serial below

theorem State.countRecord_closes (inside : r.countedAs.inStack = true)
    (reached : (s.bfu.openBatch.counting r).reached = true) (room : s.bfu.hasRoom = true) :
    s.countRecord r = (((s.tally r).modTable (Ttb.write r.serial Record.markEnd)).modOpen OpenBatch.sized).closeBatch
      false false s.bfu.openBatch.job := by
  rw [State.countRecord_eq, if_pos inside]
  exact State.sizeTest_closes r.serial reached room

theorem State.countRecord_closed (inside : r.countedAs.inStack = true)
    (reached : (s.bfu.openBatch.counting r).reached = true) (room : s.bfu.hasRoom = true) (q : PortNum) (e : Event) :
    (s.countRecord r).bfu = Bfu.close false false s.phu.cycle s.bfu.openBatch.job
        { s.bfu with openBatch := (s.bfu.openBatch.counting r).sized } ∧
      (s.countRecord r).requested q e
        = requestedByClose (s.requested q e) s.bfu.queue.length (s.bfu.jobs.get s.bfu.openBatch.job) e := by
  rw [State.countRecord_closes inside reached room]
  exact ⟨State.closeBatch_bfu _ _ _ _, State.closeBatch_requested _ _ _ _ q e⟩

theorem State.countRecord_holds (inside : r.countedAs.inStack = true)
    (reached : (s.bfu.openBatch.counting r).reached = true) (full : ¬ s.bfu.hasRoom = true) :
    s.countRecord r = ((s.tally r).modOpen OpenBatch.sized).raiseQfull := by
  rw [State.countRecord_eq, if_pos inside]
  exact State.sizeTest_holds r.serial reached full

variable (s r)

/-- The table after a count: the record written, and batch end on it where the batch ends on it. -/
theorem State.countRecord_ttb : (s.countRecord r).ttb
    = if s.endsOn r then (s.tally r).ttb.write r.serial Record.markEnd else (s.tally r).ttb := by
  unfold State.endsOn
  cases inside : r.countedAs.inStack with
  | false => rw [State.countRecord_apart inside]; rfl
  | true =>
    cases reached : (s.bfu.openBatch.counting r).reached with
    | false => rw [State.countRecord_below inside reached, Bool.and_false]; rfl
    | true =>
      cases room : s.bfu.hasRoom with
      | true => rw [State.countRecord_closes inside reached room, State.closeBatch_ttb]; rfl
      | false => rw [State.countRecord_holds inside reached (room ▸ Bool.false_ne_true), State.raiseQfull_ttb]; rfl

theorem State.countRecord_lookup_ne {y : Word} (apart : y ≠ r.serial) :
    (s.countRecord r).ttb.lookup y = s.ttb.lookup y := by
  have tallied : (s.tally r).ttb.lookup y = s.ttb.lookup y :=
    (Ttb.lookup_write _ _ _ _ (Record.inBatch_serial _ _)).trans (if_neg apart)
  rw [State.countRecord_ttb]
  split
  · rw [Ttb.lookup_write _ _ _ _ Record.markEnd_serial, if_neg apart, tallied]
  · exact tallied

variable {r}

theorem State.countRecord_lookup (found : s.ttb.lookup r.serial = some r) : (s.countRecord r).ttb.lookup r.serial
    = some { r with cls := r.countedAs, batch := some s.bfu.openBatch.number, batchEnd := r.batchEnd || s.endsOn r } := by
  have tallied : (s.tally r).ttb.lookup r.serial
      = some { r with cls := r.countedAs, batch := some s.bfu.openBatch.number } := by
    refine (Ttb.lookup_write _ _ _ _ (Record.inBatch_serial _ _)).trans ((if_pos rfl).trans ?_)
    rw [found]
    rfl
  rw [State.countRecord_ttb]
  cases s.endsOn r with
  | false => rw [if_neg Bool.false_ne_true, tallied, Bool.or_false]
  | true =>
    rw [if_pos rfl, Ttb.lookup_write _ _ _ _ Record.markEnd_serial, if_pos rfl, tallied, Bool.or_true]
    rfl

end

/-! ## Classification (R127) -/

/-- A record that touches no batch (R128). -/
def Record.voidSkipped (r : Record) : Record := { r with cls := .voidSkip }

theorem Record.voidSkipped_serial (r : Record) : r.voidSkipped.serial = r.serial := rfl

section

variable {s : State} {r : Record}

theorem State.classify_void (void : r.kind = .void) :
    s.classify r = s.modTable (Ttb.write r.serial Record.voidSkipped) := if_pos void

theorem State.classify_void_lookup (void : r.kind = .void) (y : Word) : (s.classify r).ttb.lookup y
    = if y = r.serial then (s.ttb.lookup r.serial).map Record.voidSkipped else s.ttb.lookup y := by
  rw [State.classify_void void]
  exact Ttb.lookup_write _ _ _ _ Record.voidSkipped_serial

theorem State.classify_blank (blank : r.kind ≠ .void) : s.classify r = (s.jobTest r.job).countRecord r := if_neg blank

/-- A record of the open batch's job passes the job test. -/
theorem State.classify_same (blank : r.kind ≠ .void) (same : s.bfu.openBatch.job = r.job) :
    s.classify r = s.countRecord r := by
  rw [State.classify_blank blank, State.jobTest_same same]

/-- The job test leaves a batch of the record's job, unless a full queue holds the batch. -/
theorem State.jobTest_job {n : JobNum} (other : s.bfu.openBatch.job ≠ n)
    (free : s.bfu.openBatch.countedNothing = true ∨ s.bfu.hasRoom = true) : (s.jobTest n).bfu.openBatch.job = n := by
  by_cases nothing : s.bfu.openBatch.countedNothing = true
  · rw [State.jobTest_retags other nothing]
    rfl
  · rw [State.jobTest_closes other nothing (free.resolve_left nothing), State.endBatch_bfu]
    rfl

end

/-- The class of Table 7-2 as its rows are written. -/
theorem Record.countedAs_eq (r : Record) : r.countedAs = if r.route = .sampled then .sample
    else if r.route = .diverted then .divertedReject else if r.reject.isSome then .passedReject else .good := by
  unfold Record.countedAs
  cases r.route <;> cases r.reject.isSome <;> rfl

theorem BlankClass.inStack_eq (c : BlankClass) : c.inStack = (c == .good || c == .passedReject) := by cases c <;> rfl

/-- The batch a full queue holds: the count of a record of any job, with the marks of its size test if it is in the stack,
and QFULL raised once. -/
theorem State.countRecord_full {s : State} (r : Record) (full : ¬ s.bfu.hasRoom = true) (q : PortNum) (e : Event) :
    (s.countRecord r).bfu = { s.bfu with
        qfull := s.bfu.qfull || (r.countedAs.inStack && (s.bfu.openBatch.counting r).reached)
        openBatch := if r.countedAs.inStack then (s.bfu.openBatch.counting r).sized else s.bfu.openBatch.counting r } ∧
      (s.countRecord r).requested q e = (s.requested q e ||
        (e == .qfull && !s.bfu.qfull && (r.countedAs.inStack && (s.bfu.openBatch.counting r).reached))) := by
  cases inside : r.countedAs.inStack with
  | false =>
    rw [State.countRecord_apart inside]
    simp [State.tally_bfu, State.requested_congr (s.tally_events r)]
  | true =>
    cases reached : (s.bfu.openBatch.counting r).reached with
    | false =>
      rw [State.countRecord_below inside reached]
      simp [State.tally_bfu, State.requested_congr (s.tally_events r), OpenBatch.sized_of_below reached]
    | true =>
      rw [State.countRecord_holds inside reached full, State.raiseQfull_requested, State.raiseQfull_bfu]
      simp [State.tally_bfu, State.requested_congr (t := (s.tally r).modOpen _) (s.tally_events r)]

/-- What a held batch has counted of a record, field by field (R133 to R135). -/
theorem OpenBatch.held_eq (o : OpenBatch) (r : Record) {c : BlankClass} {good passed : Nat} (cls : c = r.countedAs)
    (hgood : good = if c = .good then min (o.good + 1) 65535 else o.good)
    (hpassed : passed = if c = .passedReject then min (o.passed + 1) 65535 else o.passed) :
    (if c.inStack then (o.counting r).sized else o.counting r) = { o with
      good := good, passed := passed
      sample := if c = .sample then min (o.sample + 1) 65535 else o.sample
      diverted := if c = .divertedReject then min (o.diverted + 1) 65535 else o.diverted
      firstSerial := some (o.firstSerial.getD r.serial), lastSerial := some r.serial
      lastInStack := if c.inStack then some ⟨r.serial, some r.birth⟩ else o.lastInStack
      contaminated := o.contaminated || c == .passedReject
      oversize := o.oversize || (c.inStack && decide (o.ne < good + passed))
      closePending := o.closePending || (c.inStack && decide (o.ne ≤ good + passed)) } := by
  subst cls hgood hpassed
  cases inside : r.countedAs.inStack with
  | false =>
    simp only [OpenBatch.counting, OpenBatch.countIn, inside, Bool.false_and, Bool.or_false]
    rfl
  | true =>
    simp only [OpenBatch.counting, OpenBatch.countIn, inside, Bool.true_and]
    rfl

/-- What the open batch counts of a record out of the stack. -/
theorem OpenBatch.counting_apart (o : OpenBatch) {r : Record} {c : BlankClass} (cls : c = r.countedAs)
    (out : c = .sample ∨ c = .divertedReject) : o.counting r = { o with
      sample := if c = .sample then min (o.sample + 1) 65535 else o.sample
      diverted := if c = .divertedReject then min (o.diverted + 1) 65535 else o.diverted
      firstSerial := some (o.firstSerial.getD r.serial), lastSerial := some r.serial } := by
  rcases out with rfl | rfl <;> simp [OpenBatch.counting, OpenBatch.countIn, ← cls, BlankClass.inStack, saturate]

/-- What the open batch counts of a record into the stack. -/
theorem OpenBatch.counting_stacked (o : OpenBatch) {r : Record} {c : BlankClass} (cls : c = r.countedAs)
    (inside : c = .good ∨ c = .passedReject) {good passed : Nat}
    (hgood : good = if c = .good then min (o.good + 1) 65535 else o.good)
    (hpassed : passed = if c = .passedReject then min (o.passed + 1) 65535 else o.passed) : o.counting r = { o with
      good := good, passed := passed
      firstSerial := some (o.firstSerial.getD r.serial), lastSerial := some r.serial
      lastInStack := some ⟨r.serial, some r.birth⟩, contaminated := o.contaminated || c == .passedReject } := by
  subst hgood hpassed
  rcases inside with rfl | rfl <;> simp [OpenBatch.counting, OpenBatch.countIn, ← cls, BlankClass.inStack, saturate]

/-- A record of another job is counted into the batch that a full queue holds, which is MIXED (R131). -/
theorem State.classify_mixes {s : State} {r : Record} (blank : r.kind ≠ .void) (other : s.bfu.openBatch.job ≠ r.job)
    (counted : ¬ s.bfu.openBatch.countedNothing = true) (full : ¬ s.bfu.hasRoom = true) :
    s.classify r = s.mixed.countRecord r := by
  rw [State.classify_blank blank, State.jobTest_mixes other counted full]

/-- Settles O48: VOID, the open batch's job, and another job with or without room, each by the count of the record. -/
theorem classificationCounts : Obligations.ClassificationCounts := by
  rintro s r y q e o cls inStack good passed rfl found - class_eq rfl hgood hpassed
  obtain rfl : cls = r.countedAs := class_eq.trans r.countedAs_eq.symm
  have nothing := s.bfu.openBatch.countedNothing_iff
  have room := s.bfu.hasRoom_iff
  rw [← BlankClass.inStack_eq]
  refine ⟨(s.classify_batchWork r).eq, fun plain apart => ?_, fun blank other free => ?_,
    fun blank other counted full => ?_, fun void => ?_, fun blank same => ?_⟩
  · by_cases void : r.kind = .void
    · rw [State.classify_void_lookup void, if_neg apart]
    · rw [State.classify_same void (plain.resolve_left void), State.countRecord_lookup_ne s r apart]
  · have job := State.jobTest_job other (free.imp nothing.mpr room.mpr)
    exact ⟨by rw [State.classify_same blank job, State.classify_blank blank], job⟩
  · have busy : ¬ s.bfu.hasRoom = true := fun h => (room.mp h).not_ge full
    have busy' : ¬ s.mixed.bfu.hasRoom = true := by rw [State.mixed_bfu]; exact busy
    have enables := (s.classify_batchWork r).enables q
    rw [State.classify_mixes blank other (fun h => counted.ne' (nothing.mp h)) busy] at enables ⊢
    obtain ⟨bfu, requested⟩ := State.countRecord_full r busy' q e
    refine ⟨fun apart => ?_, ?_, ?_, ?_, enables⟩
    · rw [State.countRecord_lookup_ne _ r apart, State.mixed_ttb]
    · rw [State.countRecord_lookup _ (s.mixed_ttb ▸ found), State.endsOn_full busy', Bool.or_false, State.mixed_bfu]
    · rw [bfu, State.mixed_bfu, OpenBatch.held_eq { s.bfu.openBatch with mixed := true } r rfl hgood hpassed]
      rfl
    · rw [requested, State.mixed_requested, State.mixed_bfu, Bool.not_true, Bool.and_false, Bool.false_and, Bool.or_false]
  · rw [State.classify_void_lookup void, if_pos rfl, found, State.classify_void void]
    exact ⟨rfl, rfl, rfl⟩
  · rw [State.classify_same blank same]
    refine ⟨?_, fun out => ?_, fun inside below unpending => ?_⟩
    · rw [State.countRecord_lookup s found]
      subst hgood hpassed
      rfl
    · have apart : r.countedAs.inStack = false := by rcases out with h | h <;> rw [h] <;> rfl
      rw [State.countRecord_apart apart, State.tally_bfu, OpenBatch.counting_apart _ rfl out]
      exact ⟨rfl, rfl⟩
    · have stacked : r.countedAs.inStack = true := by rcases inside with h | h <;> rw [h] <;> rfl
      have counted := s.bfu.openBatch.counting_stacked rfl inside hgood hpassed
      have unreached : (s.bfu.openBatch.counting r).reached = false := by
        rw [counted]
        exact Bool.or_eq_false_iff.mpr ⟨unpending, decide_eq_false below.not_ge⟩
      rw [State.countRecord_below stacked unreached, State.tally_bfu, counted]
      exact ⟨rfl, rfl⟩

/-! ## Records of the stream (R132, R134) -/

theorem Record.countedAs_stream {r : Record} (stream : r.route = .stream) :
    r.countedAs = if r.reject = none then .good else .passedReject := by
  rw [Record.countedAs, stream]
  cases r.reject <;> rfl

/-- What the open batch counts of a record of the stream, by its reject (R133). -/
theorem OpenBatch.counting_stream (o : OpenBatch) {r : Record} (stream : r.route = .stream) {good passed : Nat}
    (hgood : good = if r.reject = none then min (o.good + 1) 65535 else o.good)
    (hpassed : passed = if r.reject = none then o.passed else min (o.passed + 1) 65535) : o.counting r = { o with
      good := good, passed := passed
      firstSerial := some (o.firstSerial.getD r.serial), lastSerial := some r.serial
      lastInStack := some ⟨r.serial, some r.birth⟩, contaminated := o.contaminated || decide (r.reject ≠ none) } := by
  have cls := (Record.countedAs_stream stream).symm
  subst hgood hpassed
  cases reject : r.reject with
  | none =>
    rw [if_pos reject] at cls
    exact o.counting_stacked cls (.inl rfl) rfl rfl
  | some why =>
    rw [if_neg (reject ▸ Option.some_ne_none why)] at cls
    exact o.counting_stacked cls (.inr rfl) rfl rfl

theorem Record.countedAs_inStack {r : Record} (stream : r.route = .stream) : r.countedAs.inStack = true := by
  rw [Record.countedAs, stream]
  cases r.reject <;> rfl

/-- Settles O49: the size test fires on the batch as it has counted the record, and closes it or holds its close. -/
theorem batchClosesAtItsSize : Obligations.BatchClosesAtItsSize := by
  rintro s r y o j q e cls good passed oversize contaminated rfl rfl found blank stream same class_eq hgood hpassed
    size rfl rfl
  obtain rfl : cls = r.countedAs := class_eq.trans (Record.countedAs_stream stream).symm
  have room := s.bfu.hasRoom_iff
  have inside := Record.countedAs_inStack stream
  have counted := s.bfu.openBatch.counting_stream stream hgood hpassed
  have reached : (s.bfu.openBatch.counting r).reached = true := by
    rw [counted]
    exact (OpenBatch.reached_iff _).mpr size
  have work := s.classify_batchWork r
  have frame := work.eq
  have enables := work.enables q
  have rest := s.countRecord_lookup_ne r (y := y)
  have record := State.countRecord_lookup s found
  rw [State.endsOn, inside, reached] at record
  rw [State.classify_same blank same] at frame enables ⊢
  refine ⟨fun free => ?_, fun full => ?_, rest, enables⟩
  · rw [room.mpr free] at record
    obtain ⟨bfu, requested⟩ := State.countRecord_closed inside reached (room.mpr free) q e
    have closed := bfu.trans (Bfu.close_same _ _ _ _ (o := (s.bfu.openBatch.counting r).sized) rfl rfl)
    rw [counted] at closed
    refine ⟨frame.trans ?_, by simpa using record, requested⟩
    rw [closed]
    rfl
  · have busy : ¬ s.bfu.hasRoom = true := fun h => (room.mp h).not_ge full
    obtain ⟨bfu, requested⟩ := State.countRecord_full r busy q e
    rw [inside, reached, if_pos rfl, OpenBatch.sized, reached, counted, Bool.and_self, Bool.or_true] at bfu
    rw [inside, reached, Bool.and_self, Bool.and_true] at requested
    rw [Bool.eq_false_of_not_eq_true busy] at record
    refine ⟨frame.trans ?_, by simpa using record, requested⟩
    rw [bfu]
    rfl

end Sys2Proof.Machine

/-! PROOFS. The invariant of the batches, the jobs and the queue (R133 to R136, R146, R153), one lemma for each operation of
the Batch Forming Unit. -/

namespace Sys2Proof.Machine

/-! ## Job slots -/

theorem JobSlot.Ok.openingSize {j : JobSlot} (ok : j.Ok) : 1 ≤ j.openingSize ∧ j.openingSize ≤ 50000 := by
  unfold JobSlot.openingSize
  cases next : j.next with
  | none => exact ok.size
  | some n => exact ok.next n next

theorem JobSlot.Ok.used {j : JobSlot} (ok : j.Ok) : j.used.Ok :=
  ⟨ok.size, fun n h => absurd h.symm (Option.some_ne_none n), ok.quota, ok.closed⟩

theorem JobSlot.Ok.countClosed {j : JobSlot} (ok : j.Ok) : j.countClosed.Ok :=
  ⟨ok.size, ok.next, ok.quota, Nat.min_le_right _ _⟩

/-- A size given in an operand, as it is held (R148, R149). -/
theorem batchSize_range {size : Word} (given : size ≠ 0) :
    1 ≤ min size.toNat batchSizeLimit ∧ min size.toNat batchSizeLimit ≤ 50000 := by
  have pos : size.toNat ≠ 0 := fun h => given (BitVec.eq_of_toNat_eq h)
  exact ⟨Nat.le_min.mpr ⟨Nat.pos_of_ne_zero pos, by decide⟩, Nat.min_le_right _ _⟩

theorem JobSlot.define_ok (order : BitVec 24) {size : Word} (given : size ≠ 0) (quota : Word) :
    (JobSlot.define order size.toNat quota.toNat).Ok :=
  ⟨batchSize_range given, fun n h => absurd h.symm (Option.some_ne_none n), Nat.le_of_lt_succ quota.isLt, Nat.zero_le _⟩

theorem JobSlot.Ok.staged {j : JobSlot} (ok : j.Ok) {size : Word} (given : size ≠ 0) :
    JobSlot.Ok { j with next := some (min size.toNat batchSizeLimit) } :=
  ⟨ok.size, fun _ h => Option.some.inj h ▸ batchSize_range given, ok.quota, ok.closed⟩

/-! ## The open batch -/

theorem OpenBatch.fresh_ok (number : Word) (job : JobNum) {ne : Nat} (size : 1 ≤ ne ∧ ne ≤ 50000) :
    (OpenBatch.fresh number job ne).Ok where
  size := size
  good := Nat.zero_le _
  diverted := Nat.zero_le _
  passed := Nat.zero_le _
  sample := Nat.zero_le _
  pending := (decide_eq_false (Nat.not_le.mpr size.1)).symm
  oversize := rfl
  contaminated := rfl
  first := rfl
  last := rfl
  inStack := rfl

theorem OpenBatch.Ok.mixed {o : OpenBatch} (ok : o.Ok) : OpenBatch.Ok { o with mixed := true } := { ok with }

/-- A batch that has counted nothing takes any job and size (R129). -/
theorem OpenBatch.Ok.retagged {o : OpenBatch} (ok : o.Ok) (nothing : o.countedNothing = true) (job : JobNum) {ne : Nat}
    (size : 1 ≤ ne ∧ ne ≤ 50000) : OpenBatch.Ok { o with job := job, ne := ne } := by
  have empty : o.inStack = 0 := by
    have := o.countedNothing_iff.mp nothing
    rw [OpenBatch.inStack]
    omega
  refine { ok with size := size, pending := ?_, oversize := ?_ }
  · rw [ok.pending]
    show decide (o.ne ≤ o.inStack) = decide (ne ≤ o.inStack)
    rw [empty, decide_eq_false (Nat.not_le.mpr ok.size.1), decide_eq_false (Nat.not_le.mpr size.1)]
  · rw [ok.oversize]
    show decide (o.ne < o.inStack) = decide (ne < o.inStack)
    rw [empty]
    rfl

/-! ### Counting a record (R133 to R135) -/

theorem saturate_le (n : Nat) : saturate n ≤ 65535 := Nat.min_le_right _ _

/-- A count in its range never falls by counting. -/
theorem le_saturate_succ {n : Nat} (h : n ≤ 65535) : n ≤ saturate (n + 1) := Nat.le_min.mpr ⟨Nat.le_succ n, h⟩

theorem saturate_succ_ne_zero (n : Nat) : saturate (n + 1) ≠ 0 := by
  rw [saturate]
  omega

/-- A record counted has a class of Table 7-2 other than VOID_SKIP. -/
theorem Record.countedAs_cases (r : Record) :
    r.countedAs = .good ∨ r.countedAs = .passedReject ∨ r.countedAs = .divertedReject ∨ r.countedAs = .sample := by
  obtain ⟨counted, kept⟩ := classOf_ne r.route r.reject.isSome
  unfold Record.countedAs
  cases h : classOf r.route r.reject.isSome with
  | uncounted => exact absurd h counted
  | voidSkip => exact absurd h kept
  | _ => simp

section

variable (o : OpenBatch) (r : Record)

/-- A batch that has counted a record has counted something. -/
theorem OpenBatch.counting_something : (o.counting r).countedNothing = false := by
  rw [Bool.eq_false_iff, ne_eq, OpenBatch.countedNothing_iff]
  have good := saturate_succ_ne_zero o.good
  have diverted := saturate_succ_ne_zero o.diverted
  have passed := saturate_succ_ne_zero o.passed
  have sample := saturate_succ_ne_zero o.sample
  rcases r.countedAs_cases with h | h | h | h <;> simp [OpenBatch.counting, OpenBatch.countIn, h] <;> omega

variable {o r}

theorem OpenBatch.counting_inStack_apart (out : r.countedAs.inStack = false) : (o.counting r).inStack = o.inStack := by
  have good : r.countedAs ≠ .good := fun h => Bool.noConfusion ((congrArg _ h).symm.trans out)
  have passed : r.countedAs ≠ .passedReject := fun h => Bool.noConfusion ((congrArg _ h).symm.trans out)
  simp only [OpenBatch.inStack, OpenBatch.counting, OpenBatch.countIn, if_neg good, if_neg passed]

theorem OpenBatch.counting_inStack_pos (inside : r.countedAs.inStack = true) : (o.counting r).inStack ≠ 0 := by
  have good := saturate_succ_ne_zero o.good
  have passed := saturate_succ_ne_zero o.passed
  rcases r.countedAs_cases with h | h | h | h
  · simp [OpenBatch.inStack, OpenBatch.counting, OpenBatch.countIn, h, good]
  · simp [OpenBatch.inStack, OpenBatch.counting, OpenBatch.countIn, h, passed]
  · exact Bool.noConfusion ((congrArg _ h).symm.trans inside)
  · exact Bool.noConfusion ((congrArg _ h).symm.trans inside)

variable (ok : o.Ok)

include ok

theorem OpenBatch.Ok.inStack_le : o.inStack ≤ (o.counting r).inStack := by
  unfold OpenBatch.inStack OpenBatch.counting OpenBatch.countIn
  refine Nat.add_le_add ?_ ?_
  · dsimp only
    split
    · exact le_saturate_succ ok.good
    · exact le_refl _
  · dsimp only
    split
    · exact le_saturate_succ ok.passed
    · exact le_refl _

/-- A close pending and OVERSIZE stay by counting, since the in-stack count never falls. -/
theorem OpenBatch.Ok.counting_sized : (o.counting r).sized = { o.counting r with
    oversize := decide (o.ne < (o.counting r).inStack), closePending := decide (o.ne ≤ (o.counting r).inStack) } := by
  have more := ok.inStack_le (r := r)
  have oversize : (o.oversize || decide (o.ne < (o.counting r).inStack)) = decide (o.ne < (o.counting r).inStack) := by
    rw [ok.oversize, Bool.or_eq_right_iff_imp, decide_eq_true_iff, decide_eq_true_iff]
    exact fun h => h.trans_le more
  have pending : (o.closePending || decide (o.ne ≤ (o.counting r).inStack))
      = decide (o.ne ≤ (o.counting r).inStack) := by
    rw [ok.pending, Bool.or_eq_right_iff_imp, decide_eq_true_iff, decide_eq_true_iff]
    exact fun h => h.trans more
  rw [← oversize, ← pending]
  rfl

/-- A record out of the stack changes neither mark. -/
theorem OpenBatch.Ok.counting_sized_apart (out : r.countedAs.inStack = false) : (o.counting r).sized = o.counting r := by
  rw [ok.counting_sized, OpenBatch.counting_inStack_apart out, ← ok.oversize, ← ok.pending]
  rfl

/-- A batch that has counted a record is sound once its size test has marked it. -/
theorem OpenBatch.Ok.counted (r : Record) : (o.counting r).sized.Ok := by
  rw [ok.counting_sized]
  have count : ∀ {n : Nat} (c : Prop) [Decidable c], n ≤ 65535 → (if c then saturate (n + 1) else n) ≤ 65535 := by
    intro n c _ h
    split
    · exact saturate_le _
    · exact h
  refine ⟨ok.size, count _ ok.good, count _ ok.diverted, count _ ok.passed, count _ ok.sample, rfl, rfl, ?_,
    (o.counting_something r).symm, (o.counting_something r).symm, ?_⟩
  · show (o.contaminated || r.countedAs == .passedReject) = decide (0 < (o.counting r).passed)
    rw [ok.contaminated]
    by_cases passed : r.countedAs = .passedReject
    · have pos := Nat.pos_of_ne_zero (saturate_succ_ne_zero o.passed)
      simp [OpenBatch.counting, OpenBatch.countIn, passed, pos]
    · simp [OpenBatch.counting, OpenBatch.countIn, passed]
  · show (if r.countedAs.inStack then some _ else o.lastInStack).isNone = decide ((o.counting r).inStack = 0)
    cases inside : r.countedAs.inStack with
    | true => rw [if_pos rfl, decide_eq_false (OpenBatch.counting_inStack_pos inside)]; rfl
    | false => rw [if_neg Bool.false_ne_true, ok.inStack, OpenBatch.counting_inStack_apart inside]

end

/-! ## The Batch Forming Unit -/

section

variable {b : Bfu} (ok : b.Ok)

include ok

theorem Bfu.Ok.modJob (j : JobNum) {f : JobSlot → JobSlot} (slot : (f (b.jobs.get j)).Ok)
    (defined : (b.jobs.get j).defined = true → (f (b.jobs.get j)).defined = true) :
    Bfu.Ok { b with jobs := b.jobs.modify j f } := by
  refine { ok with jobs := fun k => ?_, cutJob := ?_ }
  · rw [Bank.get_modify]
    split
    · next own => exact own ▸ slot
    · exact ok.jobs k
  · rw [Bank.get_modify]
    split
    · next own => exact own ▸ defined (own ▸ ok.cutJob)
    · exact ok.cutJob

theorem Bfu.Ok.modOpen {o : OpenBatch} (sound : o.Ok) (number : o.number = b.openBatch.number) :
    Bfu.Ok { b with openBatch := o } :=
  { ok with openBatch := sound, numbers := fun i x found => (ok.numbers i x found).trans number.symm }

theorem Bfu.Ok.switched {j : JobNum} (defined : (b.jobs.get j).defined = true) : Bfu.Ok { b with cutJob := j } :=
  { ok with cutJob := defined }

theorem Bfu.Ok.retag (nothing : b.openBatch.countedNothing = true) (j : JobNum) : (b.retag j).Ok :=
  (ok.modOpen (ok.openBatch.retagged nothing j (ok.jobs j).openingSize) rfl).modJob j (ok.jobs j).used id

/-- The full queue's flag stands only with 16 entries (R136). -/
theorem Bfu.Ok.held (full : ¬ b.hasRoom = true) : Bfu.Ok { b with qfull := true } :=
  { ok with qfull := fun _ => le_antisymm ok.length (not_lt.mp fun h => full (decide_eq_true h)) }

/-- A batch that has counted something is appended under its own number, and the next number is opened (R137, R138). -/
theorem Bfu.Ok.close (room : b.hasRoom = true) (counted : b.openBatch.countedNothing = false) (short forced : Bool)
    (cycle : Word) (next : JobNum) : (b.close short forced cycle next).Ok := by
  have small : b.queue.length < queueCapacity := of_decide_eq_true room
  have jobs := ok.modJob b.openBatch.job (ok.jobs _).countClosed id
  have opening := (jobs.jobs next).openingSize
  have slots := jobs.modJob next (jobs.jobs next).used id
  have first : b.openBatch.firstSerial.isSome = true := by
    rw [← Option.not_isNone, ok.openBatch.first, counted]
    rfl
  have last : b.openBatch.lastSerial.isSome = true := by
    rw [← Option.not_isNone, ok.openBatch.last, counted]
    rfl
  refine ⟨slots.jobs, slots.cutJob, OpenBatch.fresh_ok _ _ opening, ?_, fun i x found => ?_, fun x entry => ?_,
    fun flag => ?_⟩
  · show (b.queue ++ [_]).length ≤ queueCapacity
    rw [List.length_append]
    exact small
  · show x.number + BitVec.ofNat 16 ((b.queue ++ [_]).length - i) = b.openBatch.number + 1
    rw [List.length_append, List.length_singleton]
    rcases lt_or_ge i b.queue.length with old | new
    · have entry : b.queue[i]? = some x := (List.getElem?_append_left old).symm.trans found
      rw [Nat.sub_add_comm old.le, BitVec.ofNat_add, ← BitVec.add_assoc, ok.numbers i x entry]
      rfl
    · have entry := (List.getElem?_append_right new).symm.trans found
      rw [List.getElem?_singleton] at entry
      split at entry
      · next last =>
        rw [← Option.some.inj entry, show b.queue.length + 1 - i = 1 by omega]
        rfl
      · exact absurd entry.symm (Option.some_ne_none x)
  · rcases List.mem_append.mp entry with old | new
    · exact ok.present x old
    · rw [List.mem_singleton.mp new]
      exact ⟨first, last⟩
  · exact absurd (ok.qfull flag) small.ne

/-- The oldest entry taken; a queue that falls below 16 clears the QFULL flag (R136, R156). -/
theorem Bfu.Ok.pop {e : BatchRecord} {rest : List BatchRecord} (queue : b.queue = e :: rest) :
    Bfu.Ok { b with queue := rest, qfull := if b.hasRoom then b.qfull else false } := by
  have length : b.queue.length = rest.length + 1 := by rw [queue, List.length_cons]
  refine { ok with length := ?_, numbers := fun i x found => ?_, present := fun x entry => ?_, qfull := fun flag => ?_ }
  · exact Nat.le_of_succ_le (length.symm.trans_le ok.length)
  · have entry : b.queue[i + 1]? = some x := by rw [queue, List.getElem?_cons_succ, found]
    have number := ok.numbers (i + 1) x entry
    rwa [length, Nat.add_sub_add_right] at number
  · exact ok.present x (queue ▸ List.mem_cons_of_mem e entry)
  · dsimp only at flag
    split at flag
    · next room => exact absurd (ok.qfull flag) (of_decide_eq_true room).ne
    · exact Bool.noConfusion flag

end

/-! ## Counting at Kc -/

section

variable {s : State} (ok : s.bfu.Ok)

include ok

theorem State.endBatch_batches (room : s.bfu.hasRoom = true) (counted : s.bfu.openBatch.countedNothing = false)
    (short forced : Bool) (next : JobNum) : (s.endBatch short forced next).bfu.Ok := by
  rw [State.endBatch_bfu]
  exact ok.close room counted short forced _ next

theorem State.jobTest_batches (n : JobNum) : (s.jobTest n).bfu.Ok := by
  by_cases same : s.bfu.openBatch.job = n
  · rwa [State.jobTest_same same]
  by_cases nothing : s.bfu.openBatch.countedNothing = true
  · rw [State.jobTest_retags same nothing]
    exact ok.retag nothing n
  by_cases room : s.bfu.hasRoom = true
  · rw [State.jobTest_closes same nothing room]
    exact State.endBatch_batches ok room (Bool.eq_false_of_not_eq_true nothing) _ _ _
  · rw [State.jobTest_mixes same nothing room, State.mixed_bfu]
    exact (ok.modOpen ok.openBatch.mixed rfl).held room

theorem State.countRecord_batches (r : Record) : (s.countRecord r).bfu.Ok := by
  have sized := ok.modOpen (ok.openBatch.counted r) rfl
  by_cases inside : r.countedAs.inStack = true
  · by_cases reached : (s.bfu.openBatch.counting r).reached = true
    · by_cases room : s.bfu.hasRoom = true
      · rw [(State.countRecord_closed inside reached room 0 .batch).1]
        exact sized.close room (s.bfu.openBatch.counting_something r) _ _ _ _
      · rw [State.countRecord_holds inside reached room, State.raiseQfull_bfu]
        exact sized.held room
    · have below := Bool.eq_false_of_not_eq_true reached
      rw [State.countRecord_below inside below, State.tally_bfu]
      rwa [OpenBatch.sized_of_below below] at sized
  · have apart := Bool.eq_false_of_not_eq_true inside
    rw [State.countRecord_apart apart, State.tally_bfu]
    rwa [ok.openBatch.counting_sized_apart apart] at sized

theorem State.classify_batches (r : Record) : (s.classify r).bfu.Ok := by
  by_cases void : r.kind = .void
  · rwa [State.classify_void void]
  · rw [State.classify_blank void]
    exact State.countRecord_batches (State.jobTest_batches ok r.job) r

theorem State.handOff_batches : s.handOff.bfu.Ok := by
  unfold State.handOff
  split
  · exact ok
  · split
    · exact State.classify_batches ok _
    · exact ok

theorem State.advance_batches (feed splice : Bool) : (s.advance feed splice).bfu.Ok := by
  rw [State.advance_bfu]
  exact State.handOff_batches (s := s.departing) ok

end

end Sys2Proof.Machine

/-! PROOFS. What every row of the table makes of the invariant of the batches, the jobs and the queue: StepKeepsBatches
(O60). -/

namespace Sys2Proof.Machine

/-! ## The motion of the line -/

@[simp] theorem State.countMissing_bfu (s : State) : s.countMissing.bfu = s.bfu := by simp [State.countMissing]

@[simp] theorem State.repay_bfu (s : State) : s.repay.bfu = s.bfu := by rw [State.repay_frame]

@[simp] theorem State.crossBackward_bfu (s : State) : s.crossBackward.bfu = s.bfu := by
  unfold State.crossBackward
  split
  · exact (State.beginInhibition_channelWork _).bfu
  · split
    · rfl
    · exact (State.endInhibition_channelWork _ _).bfu

@[simp] theorem State.slipIf_bfu (s : State) (beyond : Bool) : (s.slipIf beyond).bfu = s.bfu := by cases beyond <;> rfl

section

variable {s : State} (ok : s.bfu.Ok)

include ok

theorem State.advanceCount_batches (feed splice : Bool) : (s.advanceCount feed splice).bfu.Ok := by
  obtain ⟨early, late, -, -, -, eq⟩ := s.advanceCount_eq feed splice _ rfl
  have before := (s.pointEvents_foldl_channelWork early ⟨s.phu.cycle + 1, 0⟩).bfu
  rw [eq]
  dsimp only
  rw [(State.pointEvents_foldl_channelWork _ late _).bfu]
  exact State.advance_batches (by rwa [State.countMissing_bfu, before]) feed splice

theorem State.countForward_batches (jumped feed splice : Bool) : (s.countForward jumped feed splice).bfu.Ok := by
  by_cases inside : s.phu.mc + 1 < s.phu.p
  · rw [State.countForward_inside jumped feed splice inside, (State.runPoints_channelWork _ _).bfu]
    exact ok
  · cases phase : s.phu.phase with
    | unsynced =>
      rw [State.countForward_wrap jumped feed splice inside phase]
      exact ok
    | synced =>
      by_cases debt : s.phu.debt = 0
      · rw [State.countForward_advance jumped feed splice inside phase debt]
        exact State.advanceCount_batches (s := s.counted .forward jumped 0) ok feed splice
      · rw [State.countForward_repay jumped feed splice inside phase debt, State.repay_bfu, State.countMissing_bfu]
        exact ok

theorem State.countBackward_batches (jumped : Bool) : (s.countBackward jumped).bfu.Ok := by
  by_cases zero : s.phu.mc = 0
  · cases phase : s.phu.phase with
    | unsynced =>
      rw [State.countBackward_wrap jumped zero phase]
      exact ok
    | synced =>
      rw [State.countBackward_crossing jumped zero phase, State.crossBackward_bfu]
      exact ok
  · rw [State.countBackward_inside jumped zero, (State.runOffPoints_channelWork _ _).bfu]
    exact ok

theorem State.crossForward_batches (feed splice : Bool) : (s.crossForward feed splice).bfu.Ok := by
  unfold State.crossForward
  split
  · exact State.advance_batches ok feed splice
  · rwa [State.repay_bfu]

theorem State.edgeWhole_batches (crosses beyond feed splice : Bool) : (s.edgeWhole crosses beyond feed splice).bfu.Ok := by
  unfold State.edgeWhole
  rw [State.modPhu_bfu, State.slipIf_bfu]
  cases crosses with
  | false => exact ok
  | true => exact State.crossForward_batches (by rwa [State.countMissing_bfu]) feed splice

theorem State.index_batches (feed splice : Bool) : (s.index feed splice).bfu.Ok := by
  by_cases forward : s.phu.lastDir = some .forward
  · cases phase : s.phu.phase with
    | unsynced =>
      rw [State.index_unsynced feed splice forward phase, State.synchronise_frame]
      exact ok
    | synced =>
      rw [State.index_synced feed splice forward phase, (s.correct_points feed splice).1.bfu]
      exact State.edgeWhole_batches ok _ _ feed splice
  · rwa [State.index_ignored feed splice forward]

end

/-! ## Commands that touch the batches, the jobs or the queue (R140, R148 to R150, R156) -/

section

variable {s : State} (ok : s.bfu.Ok) (p : PortNum)

include ok

theorem State.setJob_batches (slot : Byte) (order : BitVec 24) (size quota : Word) :
    (s.setJob p slot order size quota).bfu.Ok := by
  unfold State.setJob
  split
  · exact ok
  · split
    · exact ok
    · next given =>
      split
      · exact ok
      · exact ok.modJob _ (JobSlot.define_ok order given quota) fun _ => rfl

theorem State.setBatchSize_batches (slot : Byte) (size : Word) : (s.setBatchSize p slot size).bfu.Ok := by
  unfold State.setBatchSize
  split
  · exact ok
  · next j _ =>
    split
    · exact ok
    · next taken => exact ok.modJob j ((ok.jobs j).staged fun h => taken (.inl h)) id

theorem State.switchJob_batches (slot : Byte) : (s.switchJob p slot).bfu.Ok := by
  unfold State.switchJob
  split
  · exact ok
  · split
    · next defined => exact ok.switched defined
    · exact ok

theorem State.forceClose_batches : (s.forceClose p).bfu.Ok := by
  by_cases empty : s.bfu.openBatch.inStack = 0
  · rw [State.forceClose_empty p empty]
    exact ok
  · by_cases room : s.bfu.hasRoom = true
    · have counted : s.bfu.openBatch.countedNothing = false := by
        rw [Bool.eq_false_iff, ne_eq, OpenBatch.countedNothing_iff]
        rw [OpenBatch.inStack] at empty
        omega
      rw [State.forceClose_closes p empty room]
      exact State.endBatch_batches ok room counted _ _ _
    · rw [State.forceClose_busy p empty room]
      exact ok

theorem State.pop_batches : (s.pop p).bfu.Ok := by
  unfold State.pop
  split
  · exact ok
  · next queue => exact ok.pop queue

end

/-! ## Commands that leave the Batch Forming Unit -/

section

variable (p : PortNum) (s : State)

theorem State.fault_bfu (f : FaultRecord) : (s.fault p f).bfu = s.bfu := by rw [State.fault_frame]

theorem State.rejectRange_bfu (a b : Nat) : (s.rejectRange p a b).bfu = s.bfu := by
  unfold State.rejectRange
  split <;> rfl

theorem State.setLine_bfu (l kc counts t : Nat) : (s.setLine p l kc counts t).bfu = s.bfu := by
  unfold State.setLine
  split
  · rfl
  · split
    · rfl
    · rw [State.answer_bfu, State.takeLine_frame]

theorem State.readReached_bfu (code : Byte) (reach : Reach) : (s.readReached p code reach).bfu = s.bfu := by
  cases reach with
  | frozen => rfl
  | fault f => exact s.fault_bfu p f
  | serial x =>
    unfold State.readReached
    dsimp only
    split <;> rfl

theorem State.writeReached_bfu (code : Byte) (reach : Reach) (entries : List RawEntry) :
    (s.writeReached p code reach entries).bfu = s.bfu := by
  cases reach with
  | frozen => rfl
  | fault f => exact s.fault_bfu p f
  | serial x =>
    unfold State.writeReached
    dsimp only
    split
    · rfl
    · split
      · unfold State.writeFound
        split <;> rfl
      · rfl

theorem State.setPort_bfu (target privileges base length dirAccess : Byte) (mask : Word) :
    (s.setPort p target privileges base length dirAccess mask).bfu = s.bfu := by
  unfold State.setPort
  split <;> rfl

theorem State.portReset_bfu (target : Byte) : (s.portReset p target).bfu = s.bfu := by
  unfold State.portReset
  split
  · rfl
  · split <;> rfl

theorem State.setChannel_bfu (channel : Byte) (raw : RawConfig) : (s.setChannel p channel raw).bfu = s.bfu := by
  unfold State.setChannel
  split
  · rfl
  · split
    · rfl
    · split
      · exact (s.storeConfig_channelWork _ _).bfu
      · rfl

theorem State.enableChannel_bfu (channel : Byte) : (s.enableChannel p channel).bfu = s.bfu := by
  unfold State.enableChannel
  split
  · rfl
  · split
    · rfl
    · exact (s.enable_channelWork _).bfu
    · rfl

theorem State.disableChannel_bfu (channel : Byte) : (s.disableChannel p channel).bfu = s.bfu := by
  unfold State.disableChannel
  split
  · rfl
  · exact (s.disable_channelWork _).bfu

end

/-! ## Every row, and the CLK period -/

section

variable (p : PortNum) {body : State → State} {s : State} (ok : s.bfu.Ok)

include ok

/-- A transaction keeps the invariant if its body does. -/
theorem transact_batches (h : ∀ u : State, u.bfu.Ok → (body u).bfu.Ok) :
    Completes (transact p body s) fun t => t.bfu.Ok := by
  by_cases init : s.bti = .init
  · rw [transact_init p body s init]
    exact completes_next ok
  · rw [transact_next p body s init]
    exact completes_next (h _ (by rwa [State.openWrite_bfu]))

theorem transact_privileged_batches {code : Byte} {allowed : State → Bool}
    (h : ∀ u : State, u.bfu.Ok → (body u).bfu.Ok) :
    Completes (transact p (fun s => s.privileged p code (allowed s) body) s) fun t => t.bfu.Ok := by
  refine transact_batches p ok fun u ok => ?_
  cases allowed u with
  | false => exact (u.fault_bfu p _).symm ▸ ok
  | true => exact h u ok

theorem transact_same_bfu (h : ∀ u : State, (body u).bfu = u.bfu) : Completes (transact p body s) fun t => t.bfu.Ok :=
  transact_batches p ok fun u ok => (h u).symm ▸ ok

theorem transact_privileged_same_bfu {code : Byte} {allowed : State → Bool} (h : ∀ u : State, (body u).bfu = u.bfu) :
    Completes (transact p (fun s => s.privileged p code (allowed s) body) s) fun t => t.bfu.Ok :=
  transact_privileged_batches p ok fun u ok => (h u).symm ▸ ok

/-- A write of records takes a whole field list, or none. -/
theorem transact_write_bfu (code : Byte) (reach : State → Reach) (entries : List RawEntry) :
    Completes (transact p (fun s => if maxEntries < entries.length then s.answer p .short code []
      else s.writeReached p code (reach s) entries) s) fun t => t.bfu.Ok := by
  refine transact_same_bfu p ok fun u => ?_
  split
  · rfl
  · exact u.writeReached_bfu p code _ entries

end

/-- Every row keeps the invariant: a motion of the line counts one record at most, a reset sets every slot afresh, and of the
commands of a port five touch the Batch Forming Unit. -/
theorem exec_batches {s : State} (c : Instr) (ok : s.bfu.Ok) : Completes (exec c s) fun t => t.bfu.Ok := by
  cases c with
  | forwardCount jumped feed splice => exact completes_next (State.countForward_batches ok jumped feed splice)
  | backwardCount jumped => exact completes_next (State.countBackward_batches ok jumped)
  | indexEdge feed splice => exact completes_next (State.index_batches ok feed splice)
  | speedWindowEnd => exact completes_next ok
  | powerOnReset pins => exact completes_next Bfu.reset_ok
  | rst pins => exact completes_next Bfu.reset_ok
  | initEnd =>
    refine completes_next ?_
    split <;> exact ok
  | timerExpiry k => exact completes_next ((s.expire_channelWork k).bfu.symm ▸ ok)
  | referenceCycleLatch address =>
    refine completes_next ?_
    split
    · exact ok
    · split <;> exact ok
  | readTransaction address clocked =>
    refine completes_next ?_
    split
    · exact ok
    · split <;> exact ok
  | unknownCmd p code =>
    show Completes (execUnknownCmd p code s) _
    exact transact_same_bfu p ok fun _ => rfl
  | short p code =>
    show Completes (execShort p code s) _
    exact transact_same_bfu p ok fun _ => rfl
  | readPhase p =>
    show Completes (execReadPhase p s) _
    exact transact_same_bfu p ok fun _ => rfl
  | capture p =>
    show Completes (execCapture p s) _
    exact transact_same_bfu p ok fun _ => rfl
  | readSnapshot p =>
    show Completes (execReadSnapshot p s) _
    exact transact_same_bfu p ok fun u => by split <;> rfl
  | purge p =>
    show Completes (execPurge p s) _
    exact transact_privileged_same_bfu p ok fun _ => rfl
  | rejectRange p a b =>
    show Completes (execRejectRange p a b s) _
    exact transact_privileged_same_bfu p ok fun u => u.rejectRange_bfu p _ _
  | resync p =>
    show Completes (execResync p s) _
    exact transact_privileged_same_bfu p ok fun _ => rfl
  | setLine p l kc counts t =>
    show Completes (execSetLine p l kc counts t s) _
    exact transact_privileged_same_bfu p ok fun u => u.setLine_bfu p _ _ _ _
  | readLine p =>
    show Completes (execReadLine p s) _
    exact transact_same_bfu p ok fun _ => rfl
  | readRec p index =>
    show Completes (execReadRec p index s) _
    exact transact_same_bfu p ok fun u => u.readReached_bfu p _ _
  | readRecSer p serial =>
    show Completes (execReadRecSer p serial s) _
    exact transact_same_bfu p ok fun u => u.readReached_bfu p _ _
  | readWindow p =>
    show Completes (execReadWindow p s) _
    refine transact_same_bfu p ok fun u => ?_
    dsimp only
    split
    · rfl
    · exact u.fault_bfu p _
  | writeRec p index entries =>
    show Completes (execWriteRec p index entries s) _
    exact transact_write_bfu p ok _ _ entries
  | writeRecSer p serial entries =>
    show Completes (execWriteRecSer p serial entries s) _
    exact transact_write_bfu p ok _ _ entries
  | setPort p target privileges base length dirAccess mask =>
    show Completes (execSetPort p target privileges base length dirAccess mask s) _
    exact transact_privileged_same_bfu p ok fun u => u.setPort_bfu p _ _ _ _ _ _
  | readPort p target =>
    show Completes (execReadPort p target s) _
    exact transact_same_bfu p ok fun u => by split <;> rfl
  | readFault p target =>
    show Completes (execReadFault p target s) _
    exact transact_same_bfu p ok fun u => by split <;> rfl
  | clearFault p =>
    show Completes (execClearFault p s) _
    exact transact_same_bfu p ok fun _ => rfl
  | portReset p target =>
    show Completes (execPortReset p target s) _
    exact transact_privileged_same_bfu p ok fun u => u.portReset_bfu p target
  | setChannel p channel config =>
    show Completes (execSetChannel p channel config s) _
    exact transact_privileged_same_bfu p ok fun u => u.setChannel_bfu p channel config
  | enableChannel p channel =>
    show Completes (execEnableChannel p channel s) _
    exact transact_privileged_same_bfu p ok fun u => u.enableChannel_bfu p channel
  | disableChannel p channel =>
    show Completes (execDisableChannel p channel s) _
    exact transact_privileged_same_bfu p ok fun u => u.disableChannel_bfu p channel
  | readChannel p channel =>
    show Completes (execReadChannel p channel s) _
    exact transact_same_bfu p ok fun u => by split <;> rfl
  | setJob p slot order size quota =>
    show Completes (execSetJob p slot order size quota s) _
    exact transact_privileged_batches p ok fun _ ok => State.setJob_batches ok p slot order size quota
  | setBatchSize p slot size =>
    show Completes (execSetBatchSize p slot size s) _
    exact transact_privileged_batches p ok fun _ ok => State.setBatchSize_batches ok p slot size
  | switchJob p slot =>
    show Completes (execSwitchJob p slot s) _
    exact transact_privileged_batches p ok fun _ ok => State.switchJob_batches ok p slot
  | readJob p slot =>
    show Completes (execReadJob p slot s) _
    exact transact_same_bfu p ok fun u => by split <;> rfl
  | readOpen p =>
    show Completes (execReadOpen p s) _
    exact transact_same_bfu p ok fun _ => rfl
  | closeBatch p =>
    show Completes (execCloseBatch p s) _
    exact transact_privileged_batches p ok fun _ ok => State.forceClose_batches ok p
  | readBatch p entry =>
    show Completes (execReadBatch p entry s) _
    exact transact_same_bfu p ok fun u => by split <;> rfl
  | popBatch p =>
    show Completes (execPopBatch p s) _
    exact transact_privileged_batches p ok fun _ ok => State.pop_batches ok p
  | setEvents p events =>
    show Completes (execSetEvents p events s) _
    exact transact_same_bfu p ok fun u => by split <;> rfl
  | readEvents p =>
    show Completes (execReadEvents p s) _
    exact transact_same_bfu p ok fun _ => rfl
  | clearEvents p events =>
    show Completes (execClearEvents p events s) _
    exact transact_same_bfu p ok fun u => by split <;> rfl

/-- Settles O60: every row keeps the invariant, and a CLK period touches nothing of the Batch Forming Unit. -/
theorem stepKeepsBatches : Obligations.StepKeepsBatches :=
  step_keeps (P := fun s => s.bfu.Ok) (fun _ c ok => exec_batches c ok) (fun _ _ ok => ok) fun _ ok => ok

end Sys2Proof.Machine

/-! PROOFS. The job commands and POP_BATCH (R148 to R150, R156): JobCommands (O52) and PopTakesTheOldest (O53). -/

namespace Sys2Proof.Machine

/-! ## The job commands after the privilege check (R148 to R150) -/

section

variable {s : State} {b : Byte} {j : JobNum} (p : PortNum) {order : BitVec 24} {size quota : Word}

theorem State.setJob_unnamed (above : 7 < b.toNat) : s.setJob p b order size quota = s.answer p .range 0x60 [] := by
  rw [State.setJob, namedJob_none above]
  rfl

theorem State.setBatchSize_unnamed (above : 7 < b.toNat) : s.setBatchSize p b size = s.answer p .range 0x61 [] := by
  rw [State.setBatchSize, namedJob_none above]
  rfl

theorem State.switchJob_unnamed (above : 7 < b.toNat) : s.switchJob p b = s.answer p .range 0x62 [] := by
  rw [State.switchJob, namedJob_none above]
  rfl

/-- A slot not in use is not the cut job's, and defining it afresh does not put it in use. -/
theorem State.jobBytes_defined (x : JobSlot) (unused : s.jobInUse j = false) :
    (s.modJob j fun _ => x).jobBytes j = x.bytes j false false := by
  have notCut : (s.bfu.cutJob == j) = false := by
    simp only [State.jobInUse, Bool.or_eq_false_iff] at unused
    obtain ⟨⟨notCut, -⟩, -⟩ := unused
    exact notCut
  have stillUnused : (s.modJob j fun _ => x).jobInUse j = false := unused
  rw [State.jobBytes, stillUnused, State.modJob_bfu, Bank.get_modify_same, notCut]

variable (number : b.toNat = j.val)

include number

theorem State.setJob_zero : s.setJob p b order 0 quota = s.answer p .range 0x60 [] := by
  simp only [State.setJob, namedJob_some number]
  rfl

theorem State.setJob_busy (given : size ≠ 0) (used : s.jobInUse j = true) :
    s.setJob p b order size quota = s.answer p .busy 0x60 [] := by
  simp only [State.setJob, namedJob_some number, if_neg given, if_pos used]
  rfl

theorem State.setJob_defines (given : size ≠ 0) (unused : s.jobInUse j = false) : s.setJob p b order size quota
    = (s.modJob j fun _ => JobSlot.define order size.toNat quota.toNat).answer p .ok 0x60
      ((JobSlot.define order size.toNat quota.toNat).bytes j false false) := by
  simp only [State.setJob, namedJob_some number, if_neg given, if_neg (Bool.eq_false_iff.mp unused),
    State.jobBytes_defined _ unused]
  rfl

theorem State.setBatchSize_refused (bad : size = 0 ∨ (s.bfu.jobs.get j).defined = false) :
    s.setBatchSize p b size = s.answer p .range 0x61 [] := by
  simp only [State.setBatchSize, namedJob_some number, if_pos bad]
  rfl

theorem State.setBatchSize_stages (given : size ≠ 0) (defined : (s.bfu.jobs.get j).defined = true) :
    s.setBatchSize p b size
      = (s.modJob j fun x => { x with next := some (min size.toNat batchSizeLimit) }).answer p .ok 0x61 [] := by
  have good : ¬ (size = 0 ∨ (s.bfu.jobs.get j).defined = false) := not_or.mpr ⟨given, ne_false_of_eq_true defined⟩
  simp only [State.setBatchSize, namedJob_some number, if_neg good]
  rfl

theorem State.switchJob_undefined (undefined : (s.bfu.jobs.get j).defined = false) :
    s.switchJob p b = s.answer p .range 0x62 [] := by
  simp only [State.switchJob, namedJob_some number, if_neg (Bool.eq_false_iff.mp undefined)]
  rfl

theorem State.switchJob_switches (defined : (s.bfu.jobs.get j).defined = true) : s.switchJob p b
    = (s.modBfu fun u => { u with cutJob := j }).answer p .ok 0x62 [BitVec.ofNat 8 s.bfu.cutJob.val, b] := by
  have sent : byteOf j.val = b := by rw [← number, byteOf, BitVec.ofNat_toNat, BitVec.setWidth_eq]
  simp only [State.switchJob, namedJob_some number, if_pos defined, sent]
  rfl

end

/-! ## The job commands whole -/

/-- A command that needs SETUP, of a port that holds it and whose address stands acknowledged. -/
theorem transact_setup_addressed {s : State} {p : PortNum} (code : Byte) (body : State → State) (address : s.bti = .code p)
    (setup : (s.ports.get p).privileges.setup = true) :
    transact p (fun s => s.privileged p code (s.hasSetup p) body) s = .next { body s with bti := .idle } := by
  rw [transact_setup code body (bti_ne_init address) setup, State.openWrite_addressed address]

/-- Settles O52: with SETUP held each command is its work on the state as it stands, which the slot's name and then the
slot's state decide. -/
theorem jobCommands : Obligations.JobCommands := by
  intro s p b j order size quota address setup
  have setJob : exec (.setJob p b order size quota) s = .next { s.setJob p b order size quota with bti := .idle } :=
    transact_setup_addressed Code.setJob (State.setJob p b order size quota) address setup
  have setBatchSize : exec (.setBatchSize p b size) s = .next { s.setBatchSize p b size with bti := .idle } :=
    transact_setup_addressed Code.setBatchSize (State.setBatchSize p b size) address setup
  have switchJob : exec (.switchJob p b) s = .next { s.switchJob p b with bti := .idle } :=
    transact_setup_addressed Code.switchJob (State.switchJob p b) address setup
  rw [setJob, setBatchSize, switchJob]
  refine ⟨fun above => ⟨?_, ?_, ?_⟩, fun number => ⟨?_, fun given used => ?_, ?_, fun bad => ?_, fun given defined => ?_,
    fun undefined => ?_, fun defined => ?_⟩⟩
  · rw [State.setJob_unnamed p above]
    rfl
  · rw [State.setBatchSize_unnamed p above]
    rfl
  · rw [State.switchJob_unnamed p above]
    rfl
  · rintro rfl
    rw [State.setJob_zero p number]
    rfl
  · rw [State.setJob_busy p number given used]
    rfl
  · rintro given unused _ rfl
    rw [State.setJob_defines p number given unused]
    rfl
  · rw [State.setBatchSize_refused p number bad]
    rfl
  · rw [State.setBatchSize_stages p number given defined]
    rfl
  · rw [State.switchJob_undefined p number undefined]
    rfl
  · rw [State.switchJob_switches p number defined]
    rfl

/-! ## POP_BATCH (R136, R156) -/

section

variable {s : State} (p : PortNum)

theorem State.pop_empty (empty : s.bfu.queue = []) : s.pop p = s.answer p .empty 0x67 [] := by
  simp only [State.pop, empty]
  rfl

/-- The queue had room before the pop exactly when fewer than 15 entries are left after it. -/
theorem State.pop_oldest {e : BatchRecord} {rest : List BatchRecord} (queue : s.bfu.queue = e :: rest) : s.pop p
    = (s.modBfu fun u => { u with queue := rest, qfull := s.bfu.qfull && decide (rest.length < 15) }).answer p .ok 0x67
      (BitVec.ofNat 8 rest.length :: e.bytes) := by
  have room : s.bfu.hasRoom = decide (rest.length < 15) := by
    rw [Bool.eq_iff_iff, Bfu.hasRoom_iff, queue, List.length_cons, decide_eq_true_iff]
    omega
  have flag : (if s.bfu.hasRoom then s.bfu.qfull else false) = (s.bfu.qfull && decide (rest.length < 15)) := by
    rw [room]
    cases decide (rest.length < 15)
    · exact (Bool.and_false _).symm
    · exact (Bool.and_true _).symm
  rw [← flag]
  simp only [State.pop, queue]
  rfl

end

/-- POP_BATCH of a port with BATCH whose address stands acknowledged. -/
theorem exec_popBatch_eq {s : State} {p : PortNum} (address : s.bti = .code p)
    (held : (s.ports.get p).privileges.batch = true) : exec (.popBatch p) s = .next { s.pop p with bti := .idle } := by
  have holds : s.hasBatch p = true := held
  show execPopBatch p s = _
  rw [execPopBatch, transact_addressed _ address, holds, State.privileged_allowed]

/-- Settles O53: without BATCH the privilege fault is all there is, and else the queue decides. -/
theorem popTakesTheOldest : Obligations.PopTakesTheOldest := by
  rintro s p e rest _ address rfl
  refine ⟨fun lacking => ?_, fun held empty => ?_, fun held queue => ?_⟩
  · have code : Instr.lacking (s.ports.get p).privileges (.popBatch p) = some (p, 0x67) := by
      show (if (s.ports.get p).privileges.batch then none else some (p, 0x67)) = _
      rw [lacking]
      rfl
    rw [exec_lacking (bti_ne_init address) rfl code]
    have faulted := s.openWrite_faulted p ⟨.privilege, 0x67, none, none, none, ((s.openWrite p).ports.get p).reference⟩
    rw [State.openWrite_addressed address] at faulted ⊢
    exact completes_next faulted
  · rw [exec_popBatch_eq address held, State.pop_empty p empty]
    rfl
  · rw [exec_popBatch_eq address held, State.pop_oldest p queue]
    rfl

end Sys2Proof.Machine

/-! PROOFS. Events and attention lines (R159 to R165), and what a read transaction sends (R176, R177): EventSetCommands
(O55), RaisingAddsToRequests (O54) and ReadTransactionSendsBuffer (O12). -/

namespace Sys2Proof.Machine

/-! ## A port's two sets and its line (R159, R161) -/

theorem EventSets.attn_iff (x : EventSets) : x.attn = true ↔
    ∃ m : Fin 11, x.request.getLsbD m = true ∧ x.enable.getLsbD m = true := by
  rw [EventSets.attn, bne_iff_ne, ← not_iff_not, not_not, BitVec.eq_of_getLsbD_eq_iff, not_exists, Fin.forall_iff]
  refine forall₂_congr fun m _ => ?_
  rw [BitVec.getLsbD_and, ← Bool.and_eq_true, Bool.not_eq_true]
  exact Iff.of_eq (congrArg (_ = ·) BitVec.getLsbD_zero)

@[simp] theorem State.requested_raiseTo (s : State) (p q : PortNum) (f e : Event) :
    (s.raiseTo p f).requested q e = (s.requested q e || (e == f && q == p)) := by
  rw [State.requested, State.raiseTo_get]
  by_cases own : q = p
  · subst own
    simp [State.requested, EventSets.add, Event.only_getLsbD]
  · simp [State.requested, own]

@[simp] theorem State.raiseTo_enable (s : State) (p q : PortNum) (e : Event) :
    ((s.raiseTo p e).events.get q).enable = (s.events.get q).enable := by
  rw [State.raiseTo_get]
  split
  · next own => rw [own, EventSets.add_enable]
  · rfl

/-- Settles O54: the bits by the table, the two raises by their rules, and the line by `EventSets.attn_iff`. -/
theorem raisingAddsToRequests : Obligations.RaisingAddsToRequests := by
  intro s p q e f
  refine ⟨?_, rfl, rfl, s.requested_raise e f q, s.requested_raiseTo p q e f, ?_, s.raiseTo_enable p q e,
    (s.events.get q).attn_iff⟩
  · cases f <;> rfl
  · rw [State.raise_get, EventSets.add_enable]

/-! ## SET_EVENTS, CLEAR_EVENTS and READ_EVENTS (R163 to R165) -/

theorem namedEvents_eq (w : Word) : namedEvents w = if w.toNat < 2048 then some (w.setWidth 11) else none :=
  if_congr (extractUpper_eq_zero 11 5 rfl w) (by rw [BitVec.setWidth_eq_extractLsb' (by decide)]) rfl

theorem namedEvents_some {w : Word} (h : w.toNat < 2048) : namedEvents w = some (w.setWidth 11) :=
  (namedEvents_eq w).trans (if_pos h)

theorem namedEvents_none {w : Word} (h : 2048 ≤ w.toNat) : namedEvents w = none :=
  (namedEvents_eq w).trans (if_neg (Nat.not_lt.mpr h))

/-- A word that names events alone is the set it names, widened again. -/
theorem eventSet_widened {w : Word} (h : w.toNat < 2048) : (w.setWidth 11).setWidth 16 = w := by
  apply BitVec.eq_of_toNat_eq
  rw [BitVec.toNat_setWidth, BitVec.toNat_setWidth, Nat.mod_eq_of_lt h, Nat.mod_eq_of_lt w.isLt]

theorem eventSet_getLsbD (w : Word) (m : Fin 11) : (w.setWidth 11).getLsbD m = w.getLsbD m := by
  rw [BitVec.getLsbD_setWidth, decide_eq_true m.isLt, Bool.true_and]

section

variable (x : EventSets) (new : EventSet) (m : Fin 11)

theorem EventSets.enableOnly_getLsbD : (x.enableOnly new).request.getLsbD m
    = (x.request.getLsbD m && !(new.getLsbD m && !x.enable.getLsbD m)) := by
  simp only [EventSets.enableOnly, EventSets.discarded, BitVec.getLsbD_and, BitVec.getLsbD_not, m.isLt, decide_true,
    Bool.true_and]
  cases x.request.getLsbD m <;> rfl

/-- The requests that went are the ones discarded. -/
theorem EventSets.discarded_eq : x.discarded new = x.request &&& ~~~(x.enableOnly new).request := by
  apply BitVec.eq_of_getLsbD_eq
  intro m hm
  have kept := x.enableOnly_getLsbD new ⟨m, hm⟩
  rw [BitVec.getLsbD_and, BitVec.getLsbD_not, kept]
  simp only [EventSets.discarded, BitVec.getLsbD_and, BitVec.getLsbD_not, hm, decide_true, Bool.true_and]
  cases x.request.getLsbD m
  · rfl
  · exact (Bool.not_not _).symm

theorem EventSets.clear_getLsbD : (x.clear new).request.getLsbD m = (x.request.getLsbD m && !new.getLsbD m) := by
  simp only [EventSets.clear, BitVec.getLsbD_and, BitVec.getLsbD_not, m.isLt, decide_true, Bool.true_and]

end

/-- The state after port `p`'s sets have become `x` and the command has answered `r`. -/
def State.storedEvents (s : State) (p : PortNum) (x : EventSets) (r : Response) : State :=
  { s with events := s.events.put p x }.answered p r

@[simp] theorem State.storedEvents_get (s : State) (p : PortNum) (x : EventSets) (r : Response) :
    (s.storedEvents p x r).events.get p = x :=
  Bank.get_put_same s.events p x

@[simp] theorem State.storedEvents_attn (s : State) (p : PortNum) (x : EventSets) (r : Response) :
    (s.storedEvents p x r).attn p = x.attn :=
  congrArg EventSets.attn (s.storedEvents_get p x r)

section

variable {s : State} {p : PortNum} (address : s.bti = .code p)

include address

theorem exec_readEvents_eq : exec (.readEvents p) s = .next (s.answered p ⟨.ok, 0x71,
    eventBytes (s.events.get p).request ++ eventBytes (s.events.get p).enable ++ [flagBit (s.attn p) 0]⟩) := by
  show execReadEvents p s = _
  rw [execReadEvents, transact_addressed _ address]
  rfl

variable {w : Word}

theorem exec_setEvents_unnamed (above : 2048 ≤ w.toNat) :
    exec (.setEvents p w) s = .next (s.answered p ⟨.range, 0x70, []⟩) := by
  show execSetEvents p w s = _
  rw [execSetEvents, transact_addressed _ address, namedEvents_none above]
  rfl

theorem exec_clearEvents_unnamed (above : 2048 ≤ w.toNat) :
    exec (.clearEvents p w) s = .next (s.answered p ⟨.range, 0x72, []⟩) := by
  show execClearEvents p w s = _
  rw [execClearEvents, transact_addressed _ address, namedEvents_none above]
  rfl

theorem exec_setEvents_named (named : w.toNat < 2048) {x : EventSets}
    (hx : x = (s.events.get p).enableOnly (w.setWidth 11)) :
    exec (.setEvents p w) s = .next (s.storedEvents p x ⟨.ok, 0x70, eventBytes x.request ++ bytes16 w
      ++ eventBytes ((s.events.get p).request &&& ~~~x.request)⟩) := by
  have enabled : eventBytes x.enable = bytes16 w := by
    rw [hx]
    exact congrArg bytes16 (eventSet_widened named)
  show execSetEvents p w s = _
  rw [execSetEvents, transact_addressed _ address, namedEvents_some named, ← enabled, hx, ← EventSets.discarded_eq]
  rfl

theorem exec_clearEvents_named (named : w.toNat < 2048) {x : EventSets}
    (hx : x = (s.events.get p).clear (w.setWidth 11)) :
    exec (.clearEvents p w) s = .next (s.storedEvents p x ⟨.ok, 0x72,
      eventBytes x.request ++ eventBytes (s.events.get p).enable⟩) := by
  show execClearEvents p w s = _
  rw [execClearEvents, transact_addressed _ address, namedEvents_some named, hx]
  rfl

end

/-- Settles O55: each command on the state as it stands, its sets bit by bit, and the line by `EventSets.attn_iff`. -/
theorem eventSetCommands : Obligations.EventSetCommands := by
  rintro s p w n _ address rfl
  refine ⟨fun above => ⟨exec_setEvents_unnamed address above, exec_clearEvents_unnamed address above⟩, ?_,
    EventSets.attn_iff _, fun named => ⟨?_, ?_⟩⟩
  · rw [exec_readEvents_eq address]
    cases s.attn p <;> rfl
  · rw [exec_setEvents_named address named rfl]
    refine completes_next ?_
    rw [State.storedEvents_attn, EventSets.attn_iff, State.storedEvents_get, EventSets.enableOnly_getLsbD,
      eventSet_getLsbD]
    exact ⟨rfl, eventSet_widened named, exists_congr fun m => and_congr_right' (by rw [← eventSet_getLsbD]; rfl), rfl⟩
  · rw [exec_clearEvents_named address named rfl]
    refine completes_next ?_
    rw [State.storedEvents_attn, EventSets.attn_iff, State.storedEvents_get, EventSets.clear_getLsbD, eventSet_getLsbD]
    refine ⟨rfl, rfl, exists_congr fun m => ?_, rfl⟩
    rw [EventSets.clear_getLsbD, eventSet_getLsbD, Bool.and_eq_true, Bool.not_eq_true', and_assoc]
    rfl

/-! ## What a read transaction sends (R176, R177) -/

theorem Response.sent_length (r : Response) (n : Nat) : (r.sent n).length = n := by
  rw [Response.sent, List.length_append, List.length_take, List.length_replicate]
  omega

/-- The buffer's bytes as far as they go, and 0xFF after them. -/
theorem Response.sent_getElem? (r : Response) {n i : Nat} (h : i < n) : (r.sent n)[i]? = some (r.bytes.getD i 0xFF) := by
  rw [Response.sent, List.getD_eq_getElem?_getD]
  by_cases inside : i < r.bytes.length
  · rw [List.getElem?_append_left (by rw [List.length_take]; omega), List.getElem?_take_of_lt h,
      List.getElem?_eq_getElem inside, Option.getD_some]
  · have rest : i - (r.bytes.take n).length < n - r.bytes.length := by rw [List.length_take]; omega
    rw [List.getElem?_append_right (by rw [List.length_take]; omega), List.getElem?_replicate_of_lt rest,
      List.getElem?_eq_none (by omega), Option.getD_none]

theorem exec_readTransaction_own {s : State} {a : BitVec 7} {p : PortNum} (n : Nat) (init : s.bti ≠ .init)
    (own : portOfAddress s.straps.addr a = some p) :
    exec (.readTransaction a n) s = .next { s with bti := .idle, sda := (s.ports.get p).response.sent n } := by
  show execReadTransaction a n s = _
  rw [execReadTransaction, if_neg init, own]

/-- Settles O12: the address names the port, and byte `i` of what it sends is byte `i` of the buffer or 0xFF. -/
theorem readTransactionSendsBuffer : Obligations.ReadTransactionSendsBuffer := by
  intro s p a base n i init block own
  obtain rfl := addressBase_toNat block
  rw [exec_readTransaction_own n init (portOfAddress_inside own)]
  refine completes_next ⟨rfl, Response.sent_length _ n, fun clocked => ?_⟩
  refine ((s.ports.get p).response.sent_getElem? clocked).trans (congrArg some ?_)
  match i with
  | 0 =>
    show (s.ports.get p).response.status.code = _
    cases (s.ports.get p).response.status <;> rfl
  | 1 => rfl
  | 2 => rfl
  | _ + 3 => rfl

end Sys2Proof.Machine

/-! PROOFS. The queue of waiting commands, and the rows that answer a refused transaction: CommandsLeaveTheQueue (O2),
StepTakesFrontCommand (O1) and RefusedTransactionsAnswer (O10). -/

namespace Sys2Proof.Machine

/-! ## The motion of the line leaves the queue -/

@[simp] theorem State.countMissing_pending (s : State) : s.countMissing.pending = s.pending := by
  rw [State.countMissing_frame]

@[simp] theorem State.repay_pending (s : State) : s.repay.pending = s.pending := by rw [State.repay_frame]

@[simp] theorem State.advance_pending (s : State) (feed splice : Bool) : (s.advance feed splice).pending = s.pending :=
  s.handedOver_batchWork.pending

@[simp] theorem State.crossForward_pending (s : State) (feed splice : Bool) :
    (s.crossForward feed splice).pending = s.pending := by
  unfold State.crossForward
  split
  · exact s.advance_pending feed splice
  · exact s.repay_pending

@[simp] theorem State.crossBackward_pending (s : State) : s.crossBackward.pending = s.pending := by
  unfold State.crossBackward
  split
  · exact (State.beginInhibition_channelWork _).pending
  · split
    · rfl
    · exact (State.endInhibition_channelWork _ _).pending

@[simp] theorem State.slipIf_pending (s : State) (beyond : Bool) : (s.slipIf beyond).pending = s.pending := by
  cases beyond <;> rfl

theorem State.edgeWhole_pending (s : State) (crosses beyond feed splice : Bool) :
    (s.edgeWhole crosses beyond feed splice).pending = s.pending := by
  cases crosses <;> simp [State.edgeWhole]

/-- An advance by a count: the point events before it, the advance, and the point events after it. -/
theorem State.advanceCount_pending (s : State) (feed splice : Bool) : (s.advanceCount feed splice).pending = s.pending := by
  obtain ⟨early, late, -, -, -, eq⟩ := s.advanceCount_eq feed splice _ rfl
  rw [eq]
  dsimp only
  rw [(State.pointEvents_foldl_channelWork _ late _).pending, State.advance_pending, State.countMissing_pending,
    (s.pointEvents_foldl_channelWork early _).pending]

theorem State.countForward_pending (s : State) (jumped feed splice : Bool) :
    (s.countForward jumped feed splice).pending = s.pending := by
  by_cases inside : s.phu.mc + 1 < s.phu.p
  · rw [State.countForward_inside jumped feed splice inside, (State.runPoints_channelWork _ _).pending]
    rfl
  · cases phase : s.phu.phase with
    | unsynced =>
      rw [State.countForward_wrap jumped feed splice inside phase]
      rfl
    | synced =>
      by_cases debt : s.phu.debt = 0
      · rw [State.countForward_advance jumped feed splice inside phase debt, State.advanceCount_pending]
        rfl
      · rw [State.countForward_repay jumped feed splice inside phase debt, State.repay_pending, State.countMissing_pending]
        rfl

theorem State.countBackward_pending (s : State) (jumped : Bool) : (s.countBackward jumped).pending = s.pending := by
  by_cases zero : s.phu.mc = 0
  · cases phase : s.phu.phase with
    | unsynced =>
      rw [State.countBackward_wrap jumped zero phase]
      rfl
    | synced =>
      rw [State.countBackward_crossing jumped zero phase, State.crossBackward_pending]
      rfl
  · rw [State.countBackward_inside jumped zero, (State.runOffPoints_channelWork _ _).pending]
    rfl

theorem State.index_pending (s : State) (feed splice : Bool) : (s.index feed splice).pending = s.pending := by
  by_cases forward : s.phu.lastDir = some .forward
  · cases phase : s.phu.phase with
    | unsynced => rw [State.index_unsynced feed splice forward phase, State.synchronise_frame]
    | synced =>
      rw [State.index_synced feed splice forward phase, (s.correct_points feed splice).1.pending, State.edgeWhole_pending]
  · rw [State.index_ignored feed splice forward]

/-! ## The work of a port's command leaves the queue -/

section

variable (p : PortNum)

@[simp] theorem State.fault_pending (f : FaultRecord) (s : State) : (s.fault p f).pending = s.pending := by
  rw [State.fault_frame]

theorem State.rejectRange_pending (a b : Nat) (s : State) : (s.rejectRange p a b).pending = s.pending := by
  unfold State.rejectRange
  split <;> rfl

theorem State.takeLine_pending (l kc counts t : Nat) (s : State) : (s.takeLine l kc counts t).pending = s.pending := by
  unfold State.takeLine
  dsimp only
  split
  · rfl
  · exact (State.beginInhibition_channelWork _).pending

theorem State.setLine_pending (l kc counts t : Nat) (s : State) : (s.setLine p l kc counts t).pending = s.pending := by
  unfold State.setLine
  split
  · rfl
  · split
    · rfl
    · exact s.takeLine_pending l kc counts t

theorem State.readReached_pending (code : Byte) (reach : Reach) (s : State) :
    (s.readReached p code reach).pending = s.pending := by
  cases reach with
  | frozen => rfl
  | fault f => exact s.fault_pending p f
  | serial x =>
    unfold State.readReached
    dsimp only
    split <;> rfl

theorem State.readWindow_pending (s : State) : (if (s.ports.get p).window.access.allows false then
      s.answer p .ok Code.readWindow (s.windowPayload p)
    else s.fault p ⟨.access, Code.readWindow, none, none, none, (s.ports.get p).reference⟩).pending = s.pending := by
  split
  · rfl
  · exact s.fault_pending p _

theorem State.writeFound_pending (code : Byte) (serial : Word) (r : Record) (entries : List RawEntry) (s : State) :
    (s.writeFound p code serial r entries).pending = s.pending := by
  unfold State.writeFound
  split <;> rfl

theorem State.writeReached_pending (code : Byte) (reach : Reach) (entries : List RawEntry) (s : State) :
    (s.writeReached p code reach entries).pending = s.pending := by
  cases reach with
  | frozen => rfl
  | fault f => exact s.fault_pending p f
  | serial x =>
    unfold State.writeReached
    dsimp only
    split
    · rfl
    · split
      · exact s.writeFound_pending p code x _ entries
      · rfl

theorem State.writeOrShort_pending (code : Byte) (reach : Reach) (entries : List RawEntry) (s : State) :
    (if maxEntries < entries.length then s.answer p .short code []
      else s.writeReached p code reach entries).pending = s.pending := by
  split
  · rfl
  · exact s.writeReached_pending p code reach entries

theorem State.setPort_pending (target privileges base length dirAccess : Byte) (mask : Word) (s : State) :
    (s.setPort p target privileges base length dirAccess mask).pending = s.pending := by
  unfold State.setPort
  split <;> rfl

theorem State.portReset_pending (target : Byte) (s : State) : (s.portReset p target).pending = s.pending := by
  unfold State.portReset
  split
  · rfl
  · split <;> rfl

theorem State.setChannel_pending (channel : Byte) (raw : RawConfig) (s : State) :
    (s.setChannel p channel raw).pending = s.pending := by
  unfold State.setChannel
  split
  · rfl
  · split
    · rfl
    · split
      · exact (s.storeConfig_channelWork _ _).pending
      · rfl

theorem State.enableChannel_pending (channel : Byte) (s : State) : (s.enableChannel p channel).pending = s.pending := by
  unfold State.enableChannel
  split
  · rfl
  · split
    · rfl
    · exact (s.enable_channelWork _).pending
    · rfl

theorem State.disableChannel_pending (channel : Byte) (s : State) : (s.disableChannel p channel).pending = s.pending := by
  unfold State.disableChannel
  split
  · rfl
  · exact (s.disable_channelWork _).pending

theorem State.setJob_pending (slot : Byte) (order : BitVec 24) (size quota : Word) (s : State) :
    (s.setJob p slot order size quota).pending = s.pending := by
  unfold State.setJob
  split
  · rfl
  · split
    · rfl
    · split <;> rfl

theorem State.setBatchSize_pending (slot : Byte) (size : Word) (s : State) :
    (s.setBatchSize p slot size).pending = s.pending := by
  unfold State.setBatchSize
  split
  · rfl
  · split <;> rfl

theorem State.switchJob_pending (slot : Byte) (s : State) : (s.switchJob p slot).pending = s.pending := by
  unfold State.switchJob
  split
  · rfl
  · split <;> rfl

theorem State.forceClose_pending (s : State) : (s.forceClose p).pending = s.pending := by
  unfold State.forceClose
  dsimp only
  split
  · rfl
  · split
    · exact (s.placeBatchEnd_batchWork.trans (State.closeBatch_batchWork _ _ _ _)).pending
    · rfl

theorem State.pop_pending (s : State) : (s.pop p).pending = s.pending := by
  unfold State.pop
  split <;> rfl

end

/-! ## Every row leaves the queue (log 19) -/

/-- A transaction leaves the queue if its body does. -/
theorem transact_pending (p : PortNum) (body : State → State) (h : ∀ u : State, (body u).pending = u.pending) (s : State) :
    Completes (transact p body s) fun t => t.pending = s.pending := by
  by_cases init : s.bti = .init
  · rw [transact_init p body s init]
    exact completes_next rfl
  · rw [transact_next p body s init]
    exact completes_next ((h _).trans (s.openWrite_pending p))

/-- A command that needs a privilege leaves the queue if its body does. -/
theorem transact_privileged_pending (p : PortNum) (code : Byte) (allowed : State → Bool) (body : State → State)
    (h : ∀ u : State, (body u).pending = u.pending) (s : State) :
    Completes (transact p (fun u => u.privileged p code (allowed u) body) s) fun t => t.pending = s.pending := by
  refine transact_pending p _ (fun u => ?_) s
  cases allowed u
  · exact u.fault_pending p _
  · exact h u

/-- Settles O2: the rows of motion by their crossings, a reset by the queue it is given, and a port's command by its work. -/
theorem commandsLeaveTheQueue : Obligations.CommandsLeaveTheQueue := by
  intro s c
  unfold exec
  cases c with
  | forwardCount jumped feed splice => exact completes_next (s.countForward_pending jumped feed splice)
  | backwardCount jumped => exact completes_next (s.countBackward_pending jumped)
  | indexEdge feed splice => exact completes_next (s.index_pending feed splice)
  | timerExpiry k => exact completes_next (s.expire_channelWork k).pending
  | speedWindowEnd | powerOnReset | rst => exact completes_next rfl
  | initEnd => exact completes_next (by split <;> rfl)
  | referenceCycleLatch | readTransaction =>
    refine completes_next ?_
    split
    · rfl
    · split <;> rfl
  | unknownCmd | short | readPhase | capture | readLine | clearFault | readOpen | readEvents =>
    refine transact_pending _ _ (fun _ => ?_) s
    rfl
  | readSnapshot | readPort | readFault | readChannel | readJob | readBatch | setEvents | clearEvents =>
    exact transact_pending _ _ (fun _ => by split <;> rfl) s
  | readRec p | readRecSer p => exact transact_pending p _ (fun u => u.readReached_pending p _ _) s
  | readWindow p => exact transact_pending p _ (fun u => u.readWindow_pending p) s
  | writeRec p | writeRecSer p => exact transact_pending p _ (fun u => u.writeOrShort_pending p _ _ _) s
  | purge | resync =>
    refine transact_privileged_pending _ _ _ _ (fun _ => ?_) s
    rfl
  | rejectRange p => exact transact_privileged_pending p _ _ _ (fun u => u.rejectRange_pending p _ _) s
  | setLine p => exact transact_privileged_pending p _ _ _ (fun u => u.setLine_pending p _ _ _ _) s
  | setPort p => exact transact_privileged_pending p _ _ _ (fun u => u.setPort_pending p _ _ _ _ _ _) s
  | portReset p => exact transact_privileged_pending p _ _ _ (fun u => u.portReset_pending p _) s
  | setChannel p => exact transact_privileged_pending p _ _ _ (fun u => u.setChannel_pending p _ _) s
  | enableChannel p => exact transact_privileged_pending p _ _ _ (fun u => u.enableChannel_pending p _) s
  | disableChannel p => exact transact_privileged_pending p _ _ _ (fun u => u.disableChannel_pending p _) s
  | setJob p => exact transact_privileged_pending p _ _ _ (fun u => u.setJob_pending p _ _ _ _) s
  | setBatchSize p => exact transact_privileged_pending p _ _ _ (fun u => u.setBatchSize_pending p _ _) s
  | switchJob p => exact transact_privileged_pending p _ _ _ (fun u => u.switchJob_pending p _) s
  | closeBatch p => exact transact_privileged_pending p _ _ _ (fun u => u.forceClose_pending p) s
  | popBatch p => exact transact_privileged_pending p _ _ _ (fun u => u.pop_pending p) s

/-- Settles O1. -/
theorem stepTakesFrontCommand : Obligations.StepTakesFrontCommand := by
  intro s c rest front
  rw [step, front]

/-! ## UNKNOWN_CMD and SHORT (R172, R175) -/

/-- Settles O10: outside INIT a transaction of the port is its work on the opened transaction, here one answer. -/
theorem refusedTransactionsAnswer : Obligations.RefusedTransactionsAnswer := by
  intro s p code running
  exact ⟨transact_next p (State.answer p .unknownCmd code []) s running,
    transact_next p (State.answer p .short code []) s running⟩

end Sys2Proof.Machine

/-! PROOFS. The wire formats of chapter 10 byte by byte (R171 to R175, R178): where the bytes of a write transaction bring
the interface, WireFormsRoundTrip (O8) and BrokenTransactionsAreRefused (O9). -/

namespace Sys2Proof.Machine

/-! ## How far operands have come (R173, R174) -/

section

variable {code : Byte} {n : Nat} {got : List Byte} (count : operandBytes code = some n)

include count

theorem knownCode_of_count : knownCode code = true := by rw [knownCode, count, Option.isSome_some]

theorem progress_of_few (few : got.length < n) : progress code got = .more := by
  simp only [progress, count, if_pos few]

/-- Once the bytes of Table 10-2 are there, the length byte of a record write decides. -/
theorem progress_of_stated {len : Byte} (framed : framedByLength code = true) (all : n ≤ got.length)
    (stated : got[n - 1]? = some len) : progress code got = if maxEntries < len.toNat then .badLength
      else if got.length < n + 2 * len.toNat then .more else .done := by
  simp only [progress, count, if_neg (Nat.not_lt.mpr all), framed, if_true, stated]

end

/-- Each byte of `ops` comes while operands of `code` are still to come. -/
def Awaited (code : Byte) (ops : List Byte) : Prop :=
  ∀ pre b post, ops = pre ++ b :: post → progress code pre = .more

theorem Awaited.of_append {code : Byte} {pre post : List Byte} (h : Awaited code (pre ++ post)) : Awaited code pre :=
  fun first b rest e => h first b (rest ++ post) (by rw [e, List.append_assoc, List.cons_append])

/-- The bytes that Table 10-2 gives for a code are awaited, a length byte among them. -/
theorem Awaited.of_count {code : Byte} {n : Nat} {ops : List Byte} (count : operandBytes code = some n)
    (within : ops.length ≤ n) : Awaited code ops := by
  rintro pre b post rfl
  refine progress_of_few count ?_
  rw [List.length_append, List.length_cons] at within
  omega

/-- So are a field list whose length byte stays within the limit, and the two bytes for each entry it states. -/
theorem Awaited.of_stated {code len : Byte} {n : Nat} {ops : List Byte} (count : operandBytes code = some (n + 1))
    (framed : framedByLength code = true) (stated : ops[n]? = some len) (limit : len.toNat ≤ maxEntries)
    (within : ops.length ≤ n + 1 + 2 * len.toNat) : Awaited code ops := by
  rintro pre b post rfl
  rw [List.length_append, List.length_cons] at within
  by_cases few : pre.length < n + 1
  · exact progress_of_few count few
  · rw [List.getElem?_append_left (by omega)] at stated
    rw [progress_of_stated count framed (Nat.not_lt.mp few) stated, if_neg (Nat.not_lt.mpr limit), if_pos (by omega)]

/-! ## Where the bytes bring the interface (Table 10-1) -/

section

variable {p : PortNum} {code : Byte} {got : List Byte}

theorem Bti.afterOperands_more (h : progress code got = .more) :
    Bti.afterOperands p code got = .operands p code got := by rw [Bti.afterOperands, h]

theorem Bti.afterOperands_done (h : progress code got = .done) :
    Bti.afterOperands p code got = .complete p code got := by rw [Bti.afterOperands, h]

theorem Bti.afterOperands_badLength (h : progress code got = .badLength) :
    Bti.afterOperands p code got = .refusing p code .badLength := by rw [Bti.afterOperands, h]

theorem Bti.receiveAll_concat (p : PortNum) (bytes : List Byte) (b : Byte) :
    Bti.receiveAll p (bytes ++ [b]) = ((Bti.receiveAll p bytes).receive b).1 := by
  rw [Bti.receiveAll, List.foldl_append]
  rfl

/-- No byte moves the interface any more, and none is acknowledged. -/
def Bti.Settled (st : Bti) : Prop := ∀ b, st.receive b = (st, false)

theorem Bti.settled_complete : (Bti.complete p code got).Settled := fun _ => rfl

theorem Bti.settled_refusing {why : Refused} : (Bti.refusing p code why).Settled := fun _ => rfl

theorem Bti.receiveAll_settled {bytes : List Byte} {st : Bti} (reached : Bti.receiveAll p bytes = st) (h : st.Settled)
    (rest : List Byte) : Bti.receiveAll p (bytes ++ rest) = st := by
  induction rest using List.reverseRecOn with
  | nil => rw [List.append_nil, reached]
  | append_singleton rest b ih => rw [← List.append_assoc, Bti.receiveAll_concat, ih, h b]

/-- A known code and bytes that were each awaited have brought the interface as far as those bytes say. -/
theorem Bti.receiveAll_operands (known : knownCode code = true) (awaited : Awaited code got) :
    Bti.receiveAll p (code :: got) = Bti.afterOperands p code got := by
  induction got using List.reverseRecOn with
  | nil =>
    show ((Bti.code p).receive code).1 = _
    rw [Bti.receive, if_pos known]
  | append_singleton got b ih =>
    rw [← List.cons_append, Bti.receiveAll_concat, ih awaited.of_append, Bti.afterOperands_more (awaited got b [] rfl)]
    rfl

/-- Before an awaited byte the interface waits for operands. -/
theorem Bti.receiveAll_waits (known : knownCode code = true) {b : Byte} {rest : List Byte}
    (awaited : Awaited code (got ++ b :: rest)) : Bti.receiveAll p (code :: got) = .operands p code got := by
  rw [Bti.receiveAll_operands known awaited.of_append, Bti.afterOperands_more (awaited got b rest rfl)]

theorem Bti.receive_operands_ack (b : Byte) :
    ((Bti.operands p code got).receive b).2 = (progress code (got ++ [b]) != .badLength) := rfl

theorem Bti.receive_unknown (unknown : knownCode code = false) :
    (Bti.code p).receive code = (.refusing p code .unknownCode, false) := by
  rw [Bti.receive, unknown]
  rfl

end

/-! ## The bytes of a command (Table 10-2) -/

theorem bytes16_eq (w : Word) : bytes16 w = [BitVec.ofNat 8 (w.toNat / 256), BitVec.ofNat 8 w.toNat] :=
  (bytes16_toNat w).trans (natBytes16_eq _)

theorem bytes24_eq (w : BitVec 24) : bytes24 w
    = [BitVec.ofNat 8 (w.toNat / 65536), BitVec.ofNat 8 (w.toNat / 256), BitVec.ofNat 8 w.toNat] := by
  have padded := (bytes24_padded w).trans (natBytes32_eq _)
  rw [natBytes16_eq, natBytes16_eq] at padded
  exact (List.cons.inj padded).2

theorem bytes32_eq (w : BitVec 32) : bytes32 w = [BitVec.ofNat 8 (w.toNat / 65536 / 256), BitVec.ofNat 8 (w.toNat / 65536),
    BitVec.ofNat 8 (w.toNat / 256), BitVec.ofNat 8 w.toNat] := by
  have split := natBytes32_eq w.toNat
  rwa [natBytes16_eq, natBytes16_eq, natBytes32, BitVec.ofNat_toNat, BitVec.setWidth_eq] at split

theorem entryBytes_eq (es : List RawEntry) : entryBytes es = es.flatMap fun e => [e.field, e.value] := by
  induction es with
  | nil => rfl
  | cons e rest ih => rw [entryBytes, ih]; rfl

theorem Awaited.of_fixed {q p : PortNum} {code' code : Byte} {ops' ops : List Byte}
    (h : some (q, code' :: ops') = some (p, code :: ops)) (count : operandBytes code' = some ops'.length) :
    Awaited code ops := by
  cases h
  exact .of_count count le_rfl

/-- The operands of a record write of at most ten entries: `head`, the length byte and the entries (R174). -/
theorem Awaited.of_entries {q p : PortNum} {code' code : Byte} {head ops : List Byte} {es : List RawEntry}
    (h : some (q, code' :: (head ++ BitVec.ofNat 8 es.length :: entryBytes es)) = some (p, code :: ops))
    (count : operandBytes code' = some (head.length + 1)) (framed : framedByLength code' = true)
    (limit : es.length ≤ maxEntries) : Awaited code ops := by
  have entries := lengthByte_toNat es limit
  cases h
  refine .of_stated count framed ?_ (entries.le.trans limit) ?_
  · rw [List.getElem?_append_right le_rfl, Nat.sub_self, List.getElem?_cons_zero]
  · rw [List.length_append, List.length_cons, entryBytes_length, entries]
    omega

/-- Each operand byte of a well-formed command is awaited. -/
theorem wireBytes_awaited {c : Instr} {p : PortNum} {code : Byte} {ops : List Byte} (formed : c.wellFormed = true)
    (h : wireBytes c = some (p, code :: ops)) : Awaited code ops := by
  cases c with
  | writeRec q i es => exact .of_entries (head := [i]) h rfl rfl (of_decide_eq_true formed)
  | writeRecSer q x es => exact .of_entries (head := bytes16 x) h rfl rfl (of_decide_eq_true formed)
  | forwardCount | backwardCount | indexEdge | speedWindowEnd | powerOnReset | rst | initEnd | timerExpiry
  | referenceCycleLatch | readTransaction | unknownCmd | short => cases h
  | _ => exact .of_fixed h rfl

/-- The law of every row: a well-formed command's bytes are a known code and whole operands that spell the command. -/
theorem wireBytes_spells (c : Instr) : Laws.WireFormat.Statement c := by
  cases c with
  | forwardCount | backwardCount | indexEdge | speedWindowEnd | powerOnReset | rst | initEnd | timerExpiry
  | referenceCycleLatch | readTransaction | unknownCmd | short => exact Laws.WireFormat.of_none rfl
  | readPhase p => exact Laws.WireFormat.readPhase p
  | capture p => exact Laws.WireFormat.capture p
  | readSnapshot p => exact Laws.WireFormat.readSnapshot p
  | purge p => exact Laws.WireFormat.purge p
  | rejectRange p a b => exact Laws.WireFormat.rejectRange p a b
  | resync p => exact Laws.WireFormat.resync p
  | setLine p l kc counts t => exact Laws.WireFormat.setLine p l kc counts t
  | readLine p => exact Laws.WireFormat.readLine p
  | readRec p index => exact Laws.WireFormat.readRec p index
  | readRecSer p serial => exact Laws.WireFormat.readRecSer p serial
  | readWindow p => exact Laws.WireFormat.readWindow p
  | writeRec p index entries => exact Laws.WireFormat.writeRec p index entries
  | writeRecSer p serial entries => exact Laws.WireFormat.writeRecSer p serial entries
  | setPort p target pr base length dirAccess mask => exact Laws.WireFormat.setPort p target pr base length dirAccess mask
  | readPort p target => exact Laws.WireFormat.readPort p target
  | readFault p target => exact Laws.WireFormat.readFault p target
  | clearFault p => exact Laws.WireFormat.clearFault p
  | portReset p target => exact Laws.WireFormat.portReset p target
  | setChannel p channel config => exact Laws.WireFormat.setChannel p channel config
  | enableChannel p channel => exact Laws.WireFormat.enableChannel p channel
  | disableChannel p channel => exact Laws.WireFormat.disableChannel p channel
  | readChannel p channel => exact Laws.WireFormat.readChannel p channel
  | setJob p slot order size quota => exact Laws.WireFormat.setJob p slot order size quota
  | setBatchSize p slot size => exact Laws.WireFormat.setBatchSize p slot size
  | switchJob p slot => exact Laws.WireFormat.switchJob p slot
  | readJob p slot => exact Laws.WireFormat.readJob p slot
  | readOpen p => exact Laws.WireFormat.readOpen p
  | closeBatch p => exact Laws.WireFormat.closeBatch p
  | readBatch p entry => exact Laws.WireFormat.readBatch p entry
  | popBatch p => exact Laws.WireFormat.popBatch p
  | setEvents p events => exact Laws.WireFormat.setEvents p events
  | readEvents p => exact Laws.WireFormat.readEvents p
  | clearEvents p events => exact Laws.WireFormat.clearEvents p events

/-! ## A command received whole -/

section

variable {c : Instr} {p : PortNum} {bytes : List Byte} (formed : c.wellFormed = true) (wire : wireBytes c = some (p, bytes))

include formed wire

/-- A command's bytes leave the interface complete, with operands that spell the command. -/
theorem Bti.receiveAll_command :
    ∃ code ops, Bti.receiveAll p bytes = .complete p code ops ∧ commandOf p code ops = some c := by
  obtain ⟨code, ops, rfl, known, done, spelt⟩ := wireBytes_spells c p bytes formed wire
  refine ⟨code, ops, ?_, spelt⟩
  rw [Bti.receiveAll_operands known (wireBytes_awaited formed wire), Bti.afterOperands_done done]

/-- The part acknowledges each byte of a command: its code, and each operand byte, which is either the last or has another
awaited after it. -/
theorem Bti.receiveAll_acknowledges {before after : List Byte} {b : Byte} (split : bytes = before ++ b :: after) :
    ((Bti.receiveAll p before).receive b).2 = true := by
  obtain ⟨code, ops, rfl, known, done, -⟩ := wireBytes_spells c p bytes formed wire
  have awaited := wireBytes_awaited formed wire
  cases before with
  | nil =>
    obtain ⟨rfl, -⟩ := List.cons.inj split
    exact congrArg Prod.snd (if_pos known)
  | cons first got =>
    obtain ⟨rfl, rfl⟩ := List.cons.inj (split.trans (List.cons_append ..))
    rw [Bti.receiveAll_waits known awaited, Bti.receive_operands_ack]
    cases after with
    | nil => rw [done]; rfl
    | cons next rest =>
      rw [awaited (got ++ [b]) next rest (List.append_assoc got [b] (next :: rest)).symm]
      rfl

end

/-- Settles O8: the bytes row by row with each value's bytes most significant first, and their reception by
`Bti.receiveAll_command`. -/
theorem wireFormsRoundTrip : Obligations.WireFormsRoundTrip := by
  intro c p bytes surplus before after b w two wire two_eq wire_eq
  have table : wireBytes c = wire c := by
    subst two_eq wire_eq
    cases c with
    | setLine | readRecSer | setPort | setBatchSize | setEvents | clearEvents =>
      simp only [wireBytes, bytes16_eq]
      rfl
    | setChannel =>
      simp only [wireBytes, configBytes, bytes16_eq, bytes32_eq]
      rfl
    | setJob =>
      simp only [wireBytes, bytes16_eq, bytes24_eq]
      rfl
    | writeRec =>
      simp only [wireBytes, entryBytes_eq]
      rfl
    | writeRecSer =>
      simp only [wireBytes, bytes16_eq, entryBytes_eq]
      rfl
    | _ => rfl
  refine ⟨table, two_eq ▸ bytes16_eq w, fun formed given => ?_⟩
  rw [← table] at given
  obtain ⟨code, ops, received, spelt⟩ := Bti.receiveAll_command formed given
  have ended := Bti.receiveAll_settled received Bti.settled_complete surplus
  refine ⟨?_, Bti.receiveAll_acknowledges formed given, ?_⟩
  · rw [ended]
    exact spelt
  · rw [ended]
    rfl

/-! ## Broken transactions (R172 to R175) -/

/-- The codes of Table 10-2 (R172). -/
theorem knownCode_iff : ∀ code : Byte, knownCode code = true ↔ code ∈ ([0x10, 0x11, 0x12]
    ++ [0x20, 0x21, 0x22, 0x23, 0x24] ++ [0x30, 0x31, 0x32, 0x33, 0x34] ++ [0x40, 0x41, 0x42, 0x43, 0x44]
    ++ [0x50, 0x51, 0x52, 0x53] ++ [0x60, 0x61, 0x62, 0x63, 0x64, 0x65, 0x66, 0x67] ++ [0x70, 0x71, 0x72] : List Byte) := by
  decide

/-- A command's bytes cut before its last are SHORT with its code. -/
theorem Bti.finish_cut {c : Instr} {p : PortNum} {code : Byte} {first rest : List Byte} (formed : c.wellFormed = true)
    (wire : wireBytes c = some (p, code :: (first ++ rest))) (cut : rest ≠ []) :
    (Bti.receiveAll p (code :: first)).finish = some (.short p code) := by
  obtain ⟨b, rest, rfl⟩ := List.exists_cons_of_ne_nil cut
  obtain ⟨_, _, same, known, -⟩ := wireBytes_spells c p _ formed wire
  obtain ⟨rfl, -⟩ := List.cons.inj same
  rw [Bti.receiveAll_waits known (wireBytes_awaited formed wire)]
  rfl

section

variable (p : PortNum) {code : Byte}

theorem Bti.receiveAll_unknown (unknown : knownCode code = false) (rest : List Byte) :
    Bti.receiveAll p (code :: rest) = .refusing p code .unknownCode := by
  have first : Bti.receiveAll p [code] = .refusing p code .unknownCode := congrArg Prod.fst (Bti.receive_unknown unknown)
  exact Bti.receiveAll_settled first Bti.settled_refusing rest

variable {got : List Byte} {len : Byte} (count : operandBytes code = some (got.length + 1))
  (framed : framedByLength code = true) (above : 10 < len.toNat)

include count framed above

theorem progress_badLength : progress code (got ++ [len]) = .badLength := by
  rw [progress_of_stated count framed (List.length_append ▸ le_rfl) List.getElem?_concat_length]
  exact if_pos above

/-- A length byte above 10 is refused, with every byte after it (R174). -/
theorem Bti.receive_badLength (b : Byte) (rest : List Byte) :
    (Bti.receiveAll p (code :: got ++ len :: rest)).finish = some (.short p code) ∧
      ((Bti.receiveAll p (code :: got)).receive len).2 = false ∧
      ((Bti.receiveAll p (code :: got ++ len :: rest)).receive b).2 = false := by
  have bad := progress_badLength count framed above
  have awaited : Awaited code (got ++ [len]) := .of_count count (by rw [List.length_append]; rfl)
  have refused : Bti.receiveAll p (code :: (got ++ [len])) = .refusing p code .badLength := by
    rw [Bti.receiveAll_operands (knownCode_of_count count) awaited, Bti.afterOperands_badLength bad]
  have settled := Bti.receiveAll_settled refused Bti.settled_refusing rest
  rw [List.cons_append, List.append_assoc, List.singleton_append] at settled
  rw [List.cons_append, settled, Bti.receiveAll_waits (knownCode_of_count count) awaited, Bti.receive_operands_ack, bad]
  exact ⟨rfl, rfl, rfl⟩

end

/-- Settles O9: a cut command waits for operands, and an unknown code and a length byte above 10 settle the interface. -/
theorem brokenTransactionsAreRefused : Obligations.BrokenTransactionsAreRefused := by
  intro c p code b first rest len serial
  refine ⟨knownCode_iff code, Bti.finish_cut, rfl, fun unknown => ?_, fun above upTo listed => ?_⟩
  · rw [Bti.receiveAll_unknown p unknown]
    exact ⟨rfl, congrArg Prod.snd (Bti.receive_unknown unknown), rfl⟩
  · obtain rfl | rfl := List.mem_pair.mp listed
    · exact Bti.receive_badLength p (code := Code.writeRec) (got := [code]) rfl rfl above b rest
    · exact Bti.receive_badLength p (code := Code.writeRecSer) (got := bytes16 serial) rfl rfl above b rest

end Sys2Proof.Machine
